-- ==== Sys2Proof/Word.lean ====
section
/-! DEFINITION. The bit vectors of the X10 transceiver core: what 00_scope.md R12 calls value types, and the words of
30_encoding.md R80 and R91. -/

namespace Sys2Proof

/-- The number of a house, 0 for A to 15 for P (00_scope.md R12). -/
abbrev HouseCode := BitVec 4

/-- The 4-bit physical pattern of a house (00_scope.md R12). -/
abbrev HousePattern := BitVec 4

/-- The 5-bit physical pattern of a unit or of a command (00_scope.md R12). -/
abbrev PayloadPattern := BitVec 5

/-- The 13-bit frame `start ++ house ++ payload` (30_encoding.md R80). -/
abbrev Frame := BitVec 13

/-- The 21-bit host command word (30_encoding.md R91). -/
abbrev CommandWord := BitVec 21

/-- The 32-bit response word `rsp_data` (10_state.md R21). -/
abbrev RspWord := BitVec 32

end Sys2Proof
end

