-- ==== Sys2Proof/Config.lean ====
section
/-! DEFINITION. What an implementation fixes (00_scope.md R7), what the environment drives (10_state.md R20), and the
free values: constants without a body, of which nothing can be proved but that they have a value. -/

namespace Sys2Proof

/-- One of the two fixed parameter sets `P50`, `P60`, each constant 0 to 65535 (00_scope.md R7). -/
structure ParamSet where
  bitLengthUs : BitVec 16
  bitDelayUs : BitVec 16
  offsetDelayUs : BitVec 16
  halfCycleDelayUs : BitVec 16
  deriving DecidableEq, Repr, Inhabited

/-- The parameters of 00_scope.md R7 that the spec leaves to the implementation. -/
structure Params where
  p50 : ParamSet
  p60 : ParamSet
  /-- `ZC_PENDING_LATCH`: is one edge that arrives while the handler is busy remembered? -/
  zcPendingLatch : Bool
  /-- `STRICT_VALIDATION`: does the parser validate start nibble and pairing? -/
  strictValidation : Bool
  deriving DecidableEq, Repr, Inhabited

/-- The input levels of one tick, `In(t)` (00_scope.md R8; 10_state.md R20). -/
structure Inputs where
  rst : Bool
  zcIn : Bool
  rxIn : Bool
  opValid : Bool
  opWord : CommandWord
  deriving DecidableEq, Repr, Inhabited

/-- The 50 Hz parameter set: OPEN in 00_scope.md R7 (log 2). -/
opaque Config.p50 : ParamSet

/-- The 60 Hz parameter set: OPEN in 00_scope.md R7 (log 2). -/
opaque Config.p60 : ParamSet

/-- `ZC_PENDING_LATCH`: OPEN in 00_scope.md R7 (log 2). -/
opaque Config.zcPendingLatch : Bool

/-- The implementation's parameters; `STRICT_VALIDATION` at the default 00_scope.md R7 gives it (log 2). -/
def Config.params : Params :=
  { p50 := Config.p50, p60 := Config.p60, zcPendingLatch := Config.zcPendingLatch, strictValidation := false }

/-- The levels the environment drives at tick `t`, where the state places none: arbitrary, so a free value
(00_scope.md R6; log 1). -/
opaque Config.freeInputs : Nat → Inputs

/-- `rsp_data` at tick `t` where no operation is accepted: UNSPEC, so a free value (30_encoding.md R93; log 4). -/
opaque Config.freeRspData : Nat → RspWord

/-- `rsp_hit` at tick `t` where no operation is accepted: UNSPEC, so a free value (30_encoding.md R93; log 4). -/
opaque Config.freeRspHit : Nat → Bool

end Sys2Proof
end

