-- ==== Sys2Proof/Syntax.lean ====
section
/-! DEFINITION. The instructions of the core: the 14 host operations of 30_encoding.md R92 and the 32 frame words of
44_frame_words.md R220 to R251, one constructor per row of spec/opcode_table.json. -/

namespace Sys2Proof

/-- An operation the host issues, or a frame word the receiver acts on.

A host operation has the operands of 30_encoding.md R92; a field it does not use is no operand (R91). A frame word has
its house pattern, bits 8:5, and its start nibble, bits 12:9: on transmit that is 1110, on receive whatever was
sampled (44_frame_words.md R252; log 7). -/
inductive Instr where
  /-- CALIBRATE: measure the mains and select a parameter set (R133). -/
  | calibrate
  /-- TRANSMIT: send `reps` copies of the frame of `house` and `payload` (R150). -/
  | transmit (house : HouseCode) (payload : PayloadPattern) (reps : BitVec 8)
  /-- IS_COMMAND_READY: read `commandReady` (R195). -/
  | isCommandReady
  /-- CLEAR_COMMAND_READY: clear both flags (R197). -/
  | clearCommandReady
  /-- GET_HOUSE: read `rxHouse` (R198). -/
  | getHouse
  /-- GET_UNIT: read `rxUnit` (R199). -/
  | getUnit
  /-- GET_COMMAND: read `rxCommand` (R200). -/
  | getCommand
  /-- DUMP_TIMING: read one profile field (R138). -/
  | dumpTiming (select : BitVec 3)
  /-- HOUSE_TO_PATTERN: look `house` up in `H2P` (R116). -/
  | houseToPattern (house : HouseCode)
  /-- PATTERN_TO_HOUSE: look `pattern` up in `P2H` (R117). -/
  | patternToHouse (pattern : HousePattern)
  /-- UNIT_TO_PATTERN: look `number` up in `U2P` (R118). -/
  | unitToPattern (number : BitVec 5)
  /-- PATTERN_TO_UNIT: look `pattern` up in `P2U` (R119). -/
  | patternToUnit (pattern : PayloadPattern)
  /-- GET_START: read `rxStart` (R201). -/
  | getStart
  /-- IS_FRAME_READY: read `frameReadyFlag` (R196). -/
  | isFrameReady
  /-- F_UNIT_13, payload 00000 (44_frame_words.md R220). -/
  | fUnit13 (start : BitVec 4) (house : HousePattern)
  /-- F_ALL_UNITS_OFF, payload 00001 (44_frame_words.md R221). -/
  | fAllUnitsOff (start : BitVec 4) (house : HousePattern)
  /-- F_UNIT_5, payload 00010 (44_frame_words.md R222). -/
  | fUnit5 (start : BitVec 4) (house : HousePattern)
  /-- F_ALL_LIGHTS_ON, payload 00011 (44_frame_words.md R223). -/
  | fAllLightsOn (start : BitVec 4) (house : HousePattern)
  /-- F_UNIT_3, payload 00100 (44_frame_words.md R224). -/
  | fUnit3 (start : BitVec 4) (house : HousePattern)
  /-- F_ON, payload 00101 (44_frame_words.md R225). -/
  | fOn (start : BitVec 4) (house : HousePattern)
  /-- F_UNIT_11, payload 00110 (44_frame_words.md R226). -/
  | fUnit11 (start : BitVec 4) (house : HousePattern)
  /-- F_OFF, payload 00111 (44_frame_words.md R227). -/
  | fOff (start : BitVec 4) (house : HousePattern)
  /-- F_UNIT_15, payload 01000 (44_frame_words.md R228). -/
  | fUnit15 (start : BitVec 4) (house : HousePattern)
  /-- F_DIM, payload 01001 (44_frame_words.md R229). -/
  | fDim (start : BitVec 4) (house : HousePattern)
  /-- F_UNIT_7, payload 01010 (44_frame_words.md R230). -/
  | fUnit7 (start : BitVec 4) (house : HousePattern)
  /-- F_BRIGHT, payload 01011 (44_frame_words.md R231). -/
  | fBright (start : BitVec 4) (house : HousePattern)
  /-- F_UNIT_1, payload 01100 (44_frame_words.md R232). -/
  | fUnit1 (start : BitVec 4) (house : HousePattern)
  /-- F_ALL_LIGHTS_OFF, payload 01101 (44_frame_words.md R233). -/
  | fAllLightsOff (start : BitVec 4) (house : HousePattern)
  /-- F_UNIT_9, payload 01110 (44_frame_words.md R234). -/
  | fUnit9 (start : BitVec 4) (house : HousePattern)
  /-- F_EXTENDED_CODE, payload 01111 (44_frame_words.md R235). -/
  | fExtendedCode (start : BitVec 4) (house : HousePattern)
  /-- F_UNIT_14, payload 10000 (44_frame_words.md R236). -/
  | fUnit14 (start : BitVec 4) (house : HousePattern)
  /-- F_HAIL_REQUEST, payload 10001 (44_frame_words.md R237). -/
  | fHailRequest (start : BitVec 4) (house : HousePattern)
  /-- F_UNIT_6, payload 10010 (44_frame_words.md R238). -/
  | fUnit6 (start : BitVec 4) (house : HousePattern)
  /-- F_HAIL_ACKNOWLEDGE, payload 10011 (44_frame_words.md R239). -/
  | fHailAcknowledge (start : BitVec 4) (house : HousePattern)
  /-- F_UNIT_4, payload 10100 (44_frame_words.md R240). -/
  | fUnit4 (start : BitVec 4) (house : HousePattern)
  /-- F_PRESET_DIM, payload 10101 (44_frame_words.md R241). -/
  | fPresetDim (start : BitVec 4) (house : HousePattern)
  /-- F_UNIT_12, payload 10110 (44_frame_words.md R242). -/
  | fUnit12 (start : BitVec 4) (house : HousePattern)
  /-- F_CMD_17, payload 10111 (44_frame_words.md R243). -/
  | fCmd17 (start : BitVec 4) (house : HousePattern)
  /-- F_UNIT_16, payload 11000 (44_frame_words.md R244). -/
  | fUnit16 (start : BitVec 4) (house : HousePattern)
  /-- F_EXTENDED_DATA, payload 11001 (44_frame_words.md R245). -/
  | fExtendedData (start : BitVec 4) (house : HousePattern)
  /-- F_UNIT_8, payload 11010 (44_frame_words.md R246). -/
  | fUnit8 (start : BitVec 4) (house : HousePattern)
  /-- F_STATUS_ON, payload 11011 (44_frame_words.md R247). -/
  | fStatusOn (start : BitVec 4) (house : HousePattern)
  /-- F_UNIT_2, payload 11100 (44_frame_words.md R248). -/
  | fUnit2 (start : BitVec 4) (house : HousePattern)
  /-- F_STATUS_OFF, payload 11101 (44_frame_words.md R249). -/
  | fStatusOff (start : BitVec 4) (house : HousePattern)
  /-- F_UNIT_10, payload 11110 (44_frame_words.md R250). -/
  | fUnit10 (start : BitVec 4) (house : HousePattern)
  /-- F_STATUS_REQUEST, payload 11111 (44_frame_words.md R251). -/
  | fStatusRequest (start : BitVec 4) (house : HousePattern)
  deriving DecidableEq, Repr

end Sys2Proof
end

