-- ==== Sys2Proof/WellFormed.lean ====
section
/-! DEFINITION. Which instructions can occur: the operations the host may issue (30_encoding.md R94) and the frames the
receiver can hold (43_receiver.md R185, R193). -/

namespace Sys2Proof

/-- The start nibble of a frame the receiver has assembled: bit 12 of the frame, bit 3 of the nibble, is always 1
(43_receiver.md R185, R193); the start code 1110 of every transmitted frame is one (30_encoding.md R80). -/
def startOk (start : BitVec 4) : Bool := start.getLsbD 3

/-- A field select DUMP_TIMING has: 0 to 4 (41_timing_profile.md R138; 5, 6, 7 are reserved, 30_encoding.md R94). -/
def selectOk (select : BitVec 3) : Bool := select ≤ 4#3

/-- The instruction can occur. -/
def wellFormed : Instr → Bool
  | .calibrate => true
  | .transmit _ _ _ => true
  | .isCommandReady => true
  | .clearCommandReady => true
  | .getHouse => true
  | .getUnit => true
  | .getCommand => true
  | .dumpTiming select => selectOk select
  | .houseToPattern _ => true
  | .patternToHouse _ => true
  | .unitToPattern _ => true
  | .patternToUnit _ => true
  | .getStart => true
  | .isFrameReady => true
  | .fUnit13 start _ => startOk start
  | .fAllUnitsOff start _ => startOk start
  | .fUnit5 start _ => startOk start
  | .fAllLightsOn start _ => startOk start
  | .fUnit3 start _ => startOk start
  | .fOn start _ => startOk start
  | .fUnit11 start _ => startOk start
  | .fOff start _ => startOk start
  | .fUnit15 start _ => startOk start
  | .fDim start _ => startOk start
  | .fUnit7 start _ => startOk start
  | .fBright start _ => startOk start
  | .fUnit1 start _ => startOk start
  | .fAllLightsOff start _ => startOk start
  | .fUnit9 start _ => startOk start
  | .fExtendedCode start _ => startOk start
  | .fUnit14 start _ => startOk start
  | .fHailRequest start _ => startOk start
  | .fUnit6 start _ => startOk start
  | .fHailAcknowledge start _ => startOk start
  | .fUnit4 start _ => startOk start
  | .fPresetDim start _ => startOk start
  | .fUnit12 start _ => startOk start
  | .fCmd17 start _ => startOk start
  | .fUnit16 start _ => startOk start
  | .fExtendedData start _ => startOk start
  | .fUnit8 start _ => startOk start
  | .fStatusOn start _ => startOk start
  | .fUnit2 start _ => startOk start
  | .fStatusOff start _ => startOk start
  | .fUnit10 start _ => startOk start
  | .fStatusRequest start _ => startOk start

end Sys2Proof
end

