-- ==== Sys2Proof/Decode.lean ====
section
/-! DEFINITION. Decoding and encoding: the 21-bit command word (30_encoding.md R91, R92, R94) and the 13-bit frame word
(30_encoding.md R80, R83; 44_frame_words.md R252). -/

namespace Sys2Proof

/-- A word of the core: what the host presents on the command port, or what the receiver has assembled. -/
inductive CodeWord where
  | command (w : CommandWord)
  | frame (f : Frame)
  deriving DecidableEq, Repr

/-- Why a word is no instruction. -/
inductive DecodeReject where
  /-- `op_code` 0x0 or 0xF (30_encoding.md R94). -/
  | reservedOpCode (code : BitVec 4)
  /-- A number of bits or a value that is no word of either format. -/
  | notAWord (nbits w : Nat)
  deriving DecidableEq, Repr

/-! ### The fields of a command word (30_encoding.md R91) -/

/-- `op_code`, bits 20:17. -/
def opCode (w : CommandWord) : BitVec 4 := w.extractLsb' 17 4

/-- `op_house`, bits 16:13. -/
def opHouse (w : CommandWord) : BitVec 4 := w.extractLsb' 13 4

/-- `op_payload`, bits 12:8. -/
def opPayload (w : CommandWord) : BitVec 5 := w.extractLsb' 8 5

/-- `op_payload[2:0]`, bits 10:8: the field select of DUMP_TIMING (41_timing_profile.md R138). -/
def opSelect (w : CommandWord) : BitVec 3 := w.extractLsb' 8 3

/-- `op_repeat`, bits 7:0. -/
def opRepeat (w : CommandWord) : BitVec 8 := w.extractLsb' 0 8

/-- The command word with these four fields, first field highest. -/
def commandWord (code house : BitVec 4) (payload : BitVec 5) (reps : BitVec 8) : CommandWord :=
  code.setWidth 21 <<< 17 ||| house.setWidth 21 <<< 13 ||| payload.setWidth 21 <<< 8 ||| reps.setWidth 21

/-! ### The fields of a frame (30_encoding.md R80, R83) -/

/-- The start nibble, bits 12:9. -/
def frameStart (f : Frame) : BitVec 4 := f.extractLsb' 9 4

/-- The house pattern, bits 8:5. -/
def frameHouse (f : Frame) : HousePattern := f.extractLsb' 5 4

/-- The payload pattern, bits 4:0. -/
def framePayload (f : Frame) : PayloadPattern := f.extractLsb' 0 5

/-- The frame with these three fields, first field highest. -/
def frameOf (start : BitVec 4) (house : HousePattern) (payload : PayloadPattern) : Frame :=
  start.setWidth 13 <<< 9 ||| house.setWidth 13 <<< 5 ||| payload.setWidth 13

/-! ### Decoding -/

/-- The operation a command word stands for (30_encoding.md R92); unused fields are ignored (R91), the two reserved op
codes are rejected (R94). A reserved field select of DUMP_TIMING decodes and is refused by its meaning (log 10). -/
def decodeCommand (w : CommandWord) : Except DecodeReject Instr :=
  match opCode w with
  | 0x1#4 => .ok .calibrate
  | 0x2#4 => .ok (.transmit (opHouse w) (opPayload w) (opRepeat w))
  | 0x3#4 => .ok .isCommandReady
  | 0x4#4 => .ok .clearCommandReady
  | 0x5#4 => .ok .getHouse
  | 0x6#4 => .ok .getUnit
  | 0x7#4 => .ok .getCommand
  | 0x8#4 => .ok (.dumpTiming (opSelect w))
  | 0x9#4 => .ok (.houseToPattern (opHouse w))
  | 0xA#4 => .ok (.patternToHouse (opHouse w))
  | 0xB#4 => .ok (.unitToPattern (opPayload w))
  | 0xC#4 => .ok (.patternToUnit (opPayload w))
  | 0xD#4 => .ok .getStart
  | 0xE#4 => .ok .isFrameReady
  | code => .error (.reservedOpCode code)

/-- The frame word with this payload pattern: 44_frame_words.md R220 + p for the pattern of value p. The last line is
the one pattern left, 11111. -/
def frameInstr (start : BitVec 4) (house : HousePattern) (payload : PayloadPattern) : Instr :=
  match payload with
  | 0x00#5 => .fUnit13 start house
  | 0x01#5 => .fAllUnitsOff start house
  | 0x02#5 => .fUnit5 start house
  | 0x03#5 => .fAllLightsOn start house
  | 0x04#5 => .fUnit3 start house
  | 0x05#5 => .fOn start house
  | 0x06#5 => .fUnit11 start house
  | 0x07#5 => .fOff start house
  | 0x08#5 => .fUnit15 start house
  | 0x09#5 => .fDim start house
  | 0x0A#5 => .fUnit7 start house
  | 0x0B#5 => .fBright start house
  | 0x0C#5 => .fUnit1 start house
  | 0x0D#5 => .fAllLightsOff start house
  | 0x0E#5 => .fUnit9 start house
  | 0x0F#5 => .fExtendedCode start house
  | 0x10#5 => .fUnit14 start house
  | 0x11#5 => .fHailRequest start house
  | 0x12#5 => .fUnit6 start house
  | 0x13#5 => .fHailAcknowledge start house
  | 0x14#5 => .fUnit4 start house
  | 0x15#5 => .fPresetDim start house
  | 0x16#5 => .fUnit12 start house
  | 0x17#5 => .fCmd17 start house
  | 0x18#5 => .fUnit16 start house
  | 0x19#5 => .fExtendedData start house
  | 0x1A#5 => .fUnit8 start house
  | 0x1B#5 => .fStatusOn start house
  | 0x1C#5 => .fUnit2 start house
  | 0x1D#5 => .fStatusOff start house
  | 0x1E#5 => .fUnit10 start house
  | _ => .fStatusRequest start house

/-- The frame word a 13-bit value is: no value is illegal (30_encoding.md R95; log 7). -/
def decodeFrame (f : Frame) : Instr :=
  frameInstr (frameStart f) (frameHouse f) (framePayload f)

/-- The instruction a word of either format stands for. -/
def decode : CodeWord → Except DecodeReject Instr
  | .command w => decodeCommand w
  | .frame f => .ok (decodeFrame f)

/-- The word that is the low bits of `w`, by the width the opcode table gives: 13 bits for a frame word, 21 for a
command word, each in whole bytes; the padding bits are 0 (log 19). -/
def wordOfBits (nbits w : Nat) : Except DecodeReject CodeWord :=
  if nbits = 13 ∨ nbits = 16 then
    if w < 2 ^ 13 then .ok (.frame (BitVec.ofNat 13 w)) else .error (.notAWord nbits w)
  else if nbits = 21 ∨ nbits = 24 then
    if w < 2 ^ 21 then .ok (.command (BitVec.ofNat 21 w)) else .error (.notAWord nbits w)
  else .error (.notAWord nbits w)

/-- Decoding, total on any number of bits and any value. -/
def decodeBits (nbits w : Nat) : Except DecodeReject Instr :=
  match wordOfBits nbits w with
  | .ok c => decode c
  | .error e => .error e

/-- The instruction the decoder reads from the bits `w`, numbered as spec/opcode_table.json numbers them. -/
def decodeTableWord (nbits w : Nat) : Option Instr :=
  match decodeBits nbits w with
  | .ok i => some i
  | .error _ => none

/-! ### Encoding -/

/-- The word of an instruction; a field the operation does not use is 0. -/
def encode : Instr → CodeWord
  | .calibrate => .command (commandWord 0x1 0 0 0)
  | .transmit house payload reps => .command (commandWord 0x2 house payload reps)
  | .isCommandReady => .command (commandWord 0x3 0 0 0)
  | .clearCommandReady => .command (commandWord 0x4 0 0 0)
  | .getHouse => .command (commandWord 0x5 0 0 0)
  | .getUnit => .command (commandWord 0x6 0 0 0)
  | .getCommand => .command (commandWord 0x7 0 0 0)
  | .dumpTiming select => .command (commandWord 0x8 0 (select.setWidth 5) 0)
  | .houseToPattern house => .command (commandWord 0x9 house 0 0)
  | .patternToHouse pattern => .command (commandWord 0xA pattern 0 0)
  | .unitToPattern number => .command (commandWord 0xB 0 number 0)
  | .patternToUnit pattern => .command (commandWord 0xC 0 pattern 0)
  | .getStart => .command (commandWord 0xD 0 0 0)
  | .isFrameReady => .command (commandWord 0xE 0 0 0)
  | .fUnit13 start house => .frame (frameOf start house 0x00)
  | .fAllUnitsOff start house => .frame (frameOf start house 0x01)
  | .fUnit5 start house => .frame (frameOf start house 0x02)
  | .fAllLightsOn start house => .frame (frameOf start house 0x03)
  | .fUnit3 start house => .frame (frameOf start house 0x04)
  | .fOn start house => .frame (frameOf start house 0x05)
  | .fUnit11 start house => .frame (frameOf start house 0x06)
  | .fOff start house => .frame (frameOf start house 0x07)
  | .fUnit15 start house => .frame (frameOf start house 0x08)
  | .fDim start house => .frame (frameOf start house 0x09)
  | .fUnit7 start house => .frame (frameOf start house 0x0A)
  | .fBright start house => .frame (frameOf start house 0x0B)
  | .fUnit1 start house => .frame (frameOf start house 0x0C)
  | .fAllLightsOff start house => .frame (frameOf start house 0x0D)
  | .fUnit9 start house => .frame (frameOf start house 0x0E)
  | .fExtendedCode start house => .frame (frameOf start house 0x0F)
  | .fUnit14 start house => .frame (frameOf start house 0x10)
  | .fHailRequest start house => .frame (frameOf start house 0x11)
  | .fUnit6 start house => .frame (frameOf start house 0x12)
  | .fHailAcknowledge start house => .frame (frameOf start house 0x13)
  | .fUnit4 start house => .frame (frameOf start house 0x14)
  | .fPresetDim start house => .frame (frameOf start house 0x15)
  | .fUnit12 start house => .frame (frameOf start house 0x16)
  | .fCmd17 start house => .frame (frameOf start house 0x17)
  | .fUnit16 start house => .frame (frameOf start house 0x18)
  | .fExtendedData start house => .frame (frameOf start house 0x19)
  | .fUnit8 start house => .frame (frameOf start house 0x1A)
  | .fStatusOn start house => .frame (frameOf start house 0x1B)
  | .fUnit2 start house => .frame (frameOf start house 0x1C)
  | .fStatusOff start house => .frame (frameOf start house 0x1D)
  | .fUnit10 start house => .frame (frameOf start house 0x1E)
  | .fStatusRequest start house => .frame (frameOf start house 0x1F)

end Sys2Proof
end

