-- ==== Sys2Proof/Machine/Rom.lean ====
section
/-! DEFINITION. The code-table ROM, constant and shared (20_memory.md R60, R61; 40_code_tables.md R110 to R114), and the
constants of 00_scope.md R7. The entries for A and ON are the source's, the others the spec's adopted tables
(93_implementation_defined.md G2 to G7; log 6). -/

namespace Sys2Proof.Machine

open Sys2Proof

/-- The four tables of 20_memory.md R61. -/
inductive RomTable where
  | h2p
  | p2h
  | u2p
  | p2u
  deriving DecidableEq, Repr

/-- The rows (address, entry) of a table: 40_code_tables.md R111 to R114. -/
def romEntries : RomTable → List (BitVec 5 × BitVec 5)
  | .h2p =>
    [(0, 0b0110), (1, 0b1110), (2, 0b0010), (3, 0b1010), (4, 0b0001), (5, 0b1001), (6, 0b0101), (7, 0b1101),
     (8, 0b0111), (9, 0b1111), (10, 0b0011), (11, 0b1011), (12, 0b0000), (13, 0b1000), (14, 0b0100), (15, 0b1100)]
  | .p2h =>
    [(0b0000, 12), (0b0001, 4), (0b0010, 2), (0b0011, 10), (0b0100, 14), (0b0101, 6), (0b0110, 0), (0b0111, 8),
     (0b1000, 13), (0b1001, 5), (0b1010, 3), (0b1011, 11), (0b1100, 15), (0b1101, 7), (0b1110, 1), (0b1111, 9)]
  | .u2p =>
    [(1, 0b01100), (2, 0b11100), (3, 0b00100), (4, 0b10100), (5, 0b00010), (6, 0b10010), (7, 0b01010), (8, 0b11010),
     (9, 0b01110), (10, 0b11110), (11, 0b00110), (12, 0b10110), (13, 0b00000), (14, 0b10000), (15, 0b01000),
     (16, 0b11000)]
  | .p2u =>
    [(0b00000, 13), (0b00010, 5), (0b00100, 3), (0b00110, 11), (0b01000, 15), (0b01010, 7), (0b01100, 1),
     (0b01110, 9), (0b10000, 14), (0b10010, 6), (0b10100, 4), (0b10110, 12), (0b11000, 16), (0b11010, 8),
     (0b11100, 2), (0b11110, 10)]

/-- `RomRead(table, addr)`: the entry, or none where the table has no entry at the address (20_memory.md R61). -/
def romRead (table : RomTable) (addr : BitVec 5) : Option (BitVec 5) :=
  (romEntries table).lookup addr

/-- The hit bit of a lookup (40_code_tables.md R110). -/
def romHit (table : RomTable) (addr : BitVec 5) : Bool := (romRead table addr).isSome

/-- The value of a lookup, 0 on a miss (40_code_tables.md R110). -/
def romValue (table : RomTable) (addr : BitVec 5) : BitVec 5 := (romRead table addr).getD 0

/-- `houseToPattern`, never a miss (40_code_tables.md R111). -/
def houseToPattern (house : HouseCode) : HousePattern := (romValue .h2p (house.setWidth 5)).setWidth 4

/-- `patternToHouse`, never a miss (40_code_tables.md R112). -/
def patternToHouse (pattern : HousePattern) : HouseCode := (romValue .p2h (pattern.setWidth 5)).setWidth 4

/-- `START_CODE` (00_scope.md R7). -/
def startCode : BitVec 4 := 0b1110

/-- `DIM` (00_scope.md R7; 40_code_tables.md R115). -/
def dimPattern : PayloadPattern := 0b01001

/-- `BRIGHT` (00_scope.md R7; 40_code_tables.md R115). -/
def brightPattern : PayloadPattern := 0b01011

/-- `CAL_EDGES` (00_scope.md R7). -/
def calEdges : BitVec 8 := 200

/-- `CAL_NUMERATOR` (00_scope.md R7). -/
def calNumerator : BitVec 32 := 100000000

/-- `FREQ_THRESHOLD` in Hz (00_scope.md R7). -/
def freqThreshold : BitVec 32 := 54

/-- `GUARD_EDGES` (00_scope.md R7). -/
def guardEdges : BitVec 8 := 6

/-- `HOLD_HALF_CYCLES` (00_scope.md R7). -/
def holdHalfCycles : BitVec 19 := 5

end Sys2Proof.Machine
end

