-- ==== Sys2Proof/Machine/State.lean ====
section
/-! DEFINITION. The state of the core (10_state.md), the reasons a step can stop, and the state after reset (R46). -/

namespace Sys2Proof.Machine

open Sys2Proof

/-- The core raises no exception and reports no error (60_exceptions.md R260), so no step ends in a fault: there is no
constructor (log 12). -/
inductive Fault where
  deriving DecidableEq, Repr

/-- Why a run is refused: the spec gives the situation no meaning (00_scope.md R11). Every constructor is safe: the model
stops and nothing is proved of the run. -/
inductive Refusal where
  /-- Raised by `exec` for an instruction without a meaning; no arm of this model does. Safe. -/
  | notModelled (mnemonic : String)
  /-- Raised by the command port when a word with `op_code` 0x0 or 0xF is accepted (30_encoding.md R94). Safe. -/
  | reservedOpCode (code : BitVec 4)
  /-- Raised by DUMP_TIMING with field select 5, 6 or 7 (30_encoding.md R94; 41_timing_profile.md R138). Safe. -/
  | reservedFieldSelect (select : BitVec 3)
  /-- Raised by TRANSMIT accepted while `calibrated = 0` (42_transmitter.md R151). Safe. -/
  | transmitUncalibrated
  deriving DecidableEq, Repr

/-- Where the main sequencer is suspended (10_state.md R28). -/
inductive MainState where
  /-- `M_IDLE`: idle. -/
  | idle
  /-- `M_CAL_SYNC`: waiting for calibration's first edge. -/
  | calSync
  /-- `M_CAL_COUNT`: counting calibration's 200 edges. -/
  | calCount
  /-- `M_TX_WAIT`: waiting for the edge that opens a slot. -/
  | txWait
  /-- `M_TX_PULSE`: inside a pulse. -/
  | txPulse
  /-- `M_TX_GAP`: inside the gap between two pulses. -/
  | txGap
  /-- `M_GUARD`: waiting out the guard interval. -/
  | guard
  deriving DecidableEq, Repr

/-- Which field of the frame is being sent (10_state.md R28). -/
inductive TxField where
  /-- `F_START` -/
  | start
  /-- `F_HOUSE` -/
  | house
  /-- `F_PAYLOAD` -/
  | payload
  deriving DecidableEq, Repr

/-- Whether the slot carries the bit or its complement (10_state.md R28). -/
inductive TxHalf where
  /-- `H_TRUE` -/
  | plain
  /-- `H_COMPLEMENT` -/
  | complement
  deriving DecidableEq, Repr

/-- Where one run of the receive handler is suspended (10_state.md R29). -/
inductive RxPhase where
  /-- `RX_IDLE`: the handler is not running. -/
  | idle
  /-- `RX_OFFSET`: in the offset delay before a sample. -/
  | offset
  /-- `RX_HOLD`: in the settling guard after the 13th bit. -/
  | hold
  deriving DecidableEq, Repr

/-- The TimingProfile (10_state.md R34). -/
structure TimingProfile where
  mainsFrequencyHz : BitVec 32
  bitLengthUs : BitVec 16
  bitDelayUs : BitVec 16
  offsetDelayUs : BitVec 16
  halfCycleDelayUs : BitVec 16
  deriving DecidableEq, Repr

/-- The state `S(t)` of the core at the start of tick t, with the model's own bookkeeping first. -/
structure State where
  /-- The parameters of 00_scope.md R7, the arguments of the spec's `Step`; no step changes them (log 2). -/
  params : Params
  /-- The tick number t of 00_scope.md R8, the index of the free values (logs 1, 4). -/
  tick : Nat
  /-- What the environment drives at the next ticks, this tick's levels first (log 1). -/
  inputs : List Inputs
  /-- The port `rsp_data` as formed at the last tick (10_state.md R21). -/
  rspData : RspWord
  /-- The port `rsp_hit` as formed at the last tick (10_state.md R21). -/
  rspHit : Bool
  /-- Operand latches of TRANSMIT (10_state.md R22). -/
  txHousePat : HousePattern
  txPayload : PayloadPattern
  txRepeat : BitVec 8
  /-- The result registers (10_state.md R23 to R26). -/
  rxHouse : HouseCode
  rxUnit : BitVec 5
  rxCommand : PayloadPattern
  rxStart : BitVec 4
  /-- `mainPos`, the position of the main sequencer (10_state.md R28). -/
  mainState : MainState
  txField : TxField
  txBit : Fin 5
  txHalf : TxHalf
  txPhase : Fin 3
  edgeCount : BitVec 8
  mainTimer : BitVec 16
  /-- The position of the receive handler (10_state.md R29). -/
  rxPhase : RxPhase
  rxTimer : BitVec 19
  /-- The flags (10_state.md R30, R31). -/
  frameReadyFlag : Bool
  commandReady : Bool
  /-- Control and status (10_state.md R32 to R34). -/
  calibrated : Bool
  rxArmed : Bool
  profile : TimingProfile
  /-- ReceiveState (10_state.md R35 to R38). -/
  bitCount : BitVec 4
  zeroCrossCount : BitVec 5
  bitMask : BitVec 13
  accumulatorBuffer : Frame
  /-- Strict-validation state (10_state.md R39). -/
  unitPending : Bool
  unitHousePat : HousePattern
  /-- Hidden state (10_state.md R40, R41, R43, R44). -/
  zcPrev : Bool
  zcPending : Bool
  txReg : Bool
  calElapsed : BitVec 32
  deriving DecidableEq, Repr

/-- The reset state with these parameters (10_state.md R46). Every field R46 leaves UNSPEC, and `zcPrev` where no reset
tick has been seen, holds zero or its first value (log 3). -/
def State.resetWith (params : Params) : State where
  params := params
  tick := 0
  inputs := []
  rspData := 0
  rspHit := false
  txHousePat := 0
  txPayload := 0
  txRepeat := 0
  rxHouse := 0
  rxUnit := 0
  rxCommand := 0
  rxStart := 0
  mainState := .idle
  txField := .start
  txBit := 0
  txHalf := .plain
  txPhase := 0
  edgeCount := 0
  mainTimer := 0
  rxPhase := .idle
  rxTimer := 0
  frameReadyFlag := false
  commandReady := false
  calibrated := false
  rxArmed := false
  profile := ⟨0, 0, 0, 0, 0⟩
  bitCount := 0
  zeroCrossCount := 0
  bitMask := 0
  accumulatorBuffer := 0
  unitPending := false
  unitHousePat := 0
  zcPrev := false
  zcPending := false
  txReg := false
  calElapsed := 0

/-- The core right after reset, of an implementation with the parameters of `Config`. -/
def State.reset : State := State.resetWith Config.params

/-- What a step, or a part of one, answers. -/
abbrev Out := Host.Outcome State Fault Refusal

end Sys2Proof.Machine
end

