-- ==== Sys2Proof/Machine/Operands.lean ====
section
/-! DEFINITION. The operands the processes and operations read: responses widened to 32 bits, the profile field DUMP_TIMING
selects, the bit a slot carries, the lengths of the delays. -/

namespace Sys2Proof.Machine

open Sys2Proof

/-- A flag as a response word (30_encoding.md R93). -/
def rspOfFlag (flag : Bool) : RspWord := (BitVec.ofBool flag).setWidth 32

/-- The profile field DUMP_TIMING selects; 5, 6 and 7 are reserved (41_timing_profile.md R138). -/
def profileField (profile : TimingProfile) (select : BitVec 3) : Option RspWord :=
  match select with
  | 0#3 => some profile.mainsFrequencyHz
  | 1#3 => some (profile.bitLengthUs.setWidth 32)
  | 2#3 => some (profile.bitDelayUs.setWidth 32)
  | 3#3 => some (profile.offsetDelayUs.setWidth 32)
  | 4#3 => some (profile.halfCycleDelayUs.setWidth 32)
  | _ => none

/-- Bit `txBit` of the field being sent: the value SendBits is called with (42_transmitter.md R150, R153). -/
def fieldBit (s : State) : Bool :=
  match s.txField with
  | .start => startCode.getLsbD s.txBit
  | .house => s.txHousePat.getLsbD s.txBit
  | .payload => s.txPayload.getLsbD s.txBit

/-- The bit the current slot carries: the field's bit or its complement (42_transmitter.md R153, R162). -/
def slotBit (s : State) : Bool :=
  match s.txHalf with
  | .plain => fieldBit s
  | .complement => !fieldBit s

/-- Does a TRANSMIT of this payload skip the guard (42_transmitter.md R157)? -/
def skipsGuard (payload : PayloadPattern) : Bool := payload == dimPattern || payload == brightPattern

/-- The ticks of the hold, `5 * halfCycleDelayUs` (43_receiver.md R188). -/
def holdTicks (s : State) : BitVec 19 := holdHalfCycles * s.profile.halfCycleDelayUs.setWidth 19

/-- The ticks of the offset delay in the 19 bits of `rxTimer` (43_receiver.md R184). -/
def offsetTicks (s : State) : BitVec 19 := s.profile.offsetDelayUs.setWidth 19

/-- A timer loaded with n when `delay(n)` is called at tick t stands at n at tick t + 1 and so at 1 at tick t + n, where
the delay completes (00_scope.md R9; log 9). -/
def timerExpires {w : Nat} (timer : BitVec w) : Bool := timer.toNat ≤ 1

/-- The levels of this tick: the first placed, or else free (00_scope.md R6; log 1). -/
def currentInputs (s : State) : Inputs :=
  match s.inputs with
  | [] => Config.freeInputs s.tick
  | inp :: _ => inp

/-- `edge(t)`: the level of `zc_in` differs from the one of the tick before, in either direction (10_state.md R40). -/
def edgeNow (inp : Inputs) (s : State) : Bool := inp.zcIn != s.zcPrev

end Sys2Proof.Machine
end

