-- ==== Sys2Proof/Machine/Flags.lean ====
section
/-! DEFINITION. The flags and the conditions the rules test: `op_ready`, the two level flags, the start of the handler,
the pending latch, the frequency decision. -/

namespace Sys2Proof.Machine

open Sys2Proof

/-- `op_ready` in `S(t)` (10_state.md R21; 60_exceptions.md R268). -/
def opReady (s : State) : Bool := s.mainState == .idle && s.rxPhase == .idle

/-- `tx_out` in `S(t)` (10_state.md R21). -/
def txOut (s : State) : Bool := s.txReg

/-- A command word is accepted at this tick (30_encoding.md R91). -/
def accepts (inp : Inputs) (s : State) : Bool := !inp.rst && inp.opValid && opReady s

/-- The handler is started at this tick, given whether a blocking operation is accepted (60_exceptions.md R263). -/
def handlerStarts (edge blocking : Bool) (s : State) : Bool :=
  s.rxArmed && s.rxPhase == .idle && (edge || s.zcPending) && !blocking

/-- `zcPending` after this tick, from `S(t)` and its value so far; a core without the latch has 0 there
(60_exceptions.md R265). -/
def nextPending (edge blocking : Bool) (s : State) (now : Bool) : Bool :=
  (if blocking then false
    else if handlerStarts edge blocking s then false
    else if s.rxArmed && edge && s.rxPhase != .idle then true
    else now) && s.params.zcPendingLatch

/-- The handler samples at this crossing, tested on the incremented count (43_receiver.md R186). -/
def samplesNow (bitCount : BitVec 4) (zeroCrossCount : BitVec 5) : Bool :=
  bitCount < 5#4 || zeroCrossCount.getLsbD 0

/-- Both flags cleared (43_receiver.md R197). -/
def clearFlags (s : State) : State := { s with commandReady := false, frameReadyFlag := false }

/-- The quotient of calibration, `floor(10^8 / e)` (41_timing_profile.md R135). -/
def frequencyOf (elapsed : BitVec 32) : BitVec 32 := calNumerator / elapsed

/-- The parameter set a frequency selects (41_timing_profile.md R136). -/
def selectedSet (params : Params) (frequency : BitVec 32) : ParamSet :=
  if frequency < freqThreshold then params.p50 else params.p60

/-- A frame is good under strict validation: its start nibble is the start code (43_receiver.md R194). -/
def startGood (start : BitVec 4) : Bool := start == startCode

end Sys2Proof.Machine
end

