-- ==== Sys2Proof/Machine/Ops.lean ====
section
/-! DEFINITION. The shared operations: the response port, the critical section of a blocking operation, the entry and
return of the one interrupt (the core has no exception, 60_exceptions.md R260), reset, and the start of a tick. -/

namespace Sys2Proof.Machine

open Sys2Proof

/-- Go on with `f` where `o` is a next state. -/
def andThen (o : Out) (f : State → Out) : Out :=
  match o with
  | .next s => f s
  | .fault r => .fault r
  | .refused r => .refused r

/-- Form the response of the accepted operation (30_encoding.md R93). -/
def respond (hit : Bool) (data : RspWord) (s : State) : State := { s with rspHit := hit, rspData := data }

/-- The response of a code-table lookup (40_code_tables.md R110). -/
def respondLookup (table : RomTable) (addr : BitVec 5) (s : State) : State :=
  respond (romHit table addr) ((romValue table addr).setWidth 32) s

/-- The acceptance of a blocking operation disarms the receiver and forgets a latched edge
(41_timing_profile.md R133; 42_transmitter.md R150). -/
def disarm (s : State) : State := { s with rxArmed := false, zcPending := false }

/-- The last statement of a blocking operation re-arms the receiver and leaves the sequencer idle
(41_timing_profile.md R133; 42_transmitter.md R150). -/
def rearm (s : State) : State := { s with rxArmed := true, mainState := .idle }

/-- The operation starts the main sequencer (30_encoding.md R92). -/
def isBlocking : Instr → Bool
  | .calibrate => true
  | .transmit _ _ _ => true
  | _ => false

/-- Entry of the interrupt: nothing is saved and nothing switched (60_exceptions.md R267); at an edge while a frame is
assembled the edge is counted (43_receiver.md R186). -/
def enterHandler (s : State) : State :=
  if s.bitCount = 0 then s else { s with zeroCrossCount := s.zeroCrossCount + 1 }

/-- The handler suspends itself in the offset delay (43_receiver.md R184). -/
def suspendOffset (s : State) : State := { s with rxPhase := .offset, rxTimer := offsetTicks s }

/-- The handler suspends itself in the settling guard (43_receiver.md R188). -/
def suspendHold (s : State) : State := { s with rxPhase := .hold, rxTimer := holdTicks s }

/-- One more tick of the delay the handler is suspended in (00_scope.md R9). -/
def countRxTimer (s : State) : State := { s with rxTimer := s.rxTimer - 1 }

/-- Return from the interrupt (60_exceptions.md R267). -/
def returnHandler (s : State) : State := { s with rxPhase := .idle }

/-- The start of a tick: `zcPrev` takes the level of `zc_in` (10_state.md R40), the placed levels move on, and the
response port, until an operation is accepted, holds a value nothing fixes (30_encoding.md R93; logs 1, 4). -/
def beginTick (inp : Inputs) (s : State) : State :=
  { s with
    zcPrev := inp.zcIn
    tick := s.tick + 1
    inputs := s.inputs.tail
    rspData := Config.freeRspData s.tick
    rspHit := Config.freeRspHit s.tick }

/-- A tick with `rst = 1`: the reset state, with the level of `zc_in` (70_reset_and_hazards.md R290). The parameters, the
tick number and the placed levels are no state of the core and go on (log 11). -/
def resetTick (inp : Inputs) (s : State) : State :=
  { State.resetWith s.params with
    zcPrev := inp.zcIn
    tick := s.tick + 1
    inputs := s.inputs.tail
    rspData := Config.freeRspData s.tick
    rspHit := Config.freeRspHit s.tick }

end Sys2Proof.Machine
end

