-- ==== Sys2Proof/Machine/Calibrate.lean ====
section
/-! DEFINITION. CALIBRATE and DUMP_TIMING (41_timing_profile.md R133, R135, R136, R138): the meanings at acceptance, and
the sequencer's statements after them. -/

namespace Sys2Proof.Machine

open Sys2Proof

/-- CALIBRATE at its acceptance (R133, "at ta"). -/
def execCalibrate (s : State) : Out :=
  .next { disarm (respond true 0 s) with mainState := .calSync }

/-- The first edge, the synchronization point (R133, "at t1"). -/
def calSyncEdge (s : State) : State :=
  { s with calElapsed := 0, edgeCount := calEdges, mainState := .calCount }

/-- One more tick of `M_CAL_COUNT`, saturating (10_state.md R44). -/
def countElapsed (s : State) : State :=
  { s with calElapsed := if s.calElapsed = BitVec.allOnes 32 then s.calElapsed else s.calElapsed + 1 }

/-- The profile of a measured time: the quotient, and one of the two sets whole (R133, "at t2"; R135, R136). -/
def profileOf (params : Params) (elapsed : BitVec 32) : TimingProfile :=
  let set := selectedSet params (frequencyOf elapsed)
  { mainsFrequencyHz := frequencyOf elapsed
    bitLengthUs := set.bitLengthUs
    bitDelayUs := set.bitDelayUs
    offsetDelayUs := set.offsetDelayUs
    halfCycleDelayUs := set.halfCycleDelayUs }

/-- The last statements of CALIBRATE (R133, "at t2"). -/
def finishCalibrate (s : State) : State :=
  rearm { s with profile := profileOf s.params s.calElapsed, calibrated := true }

/-- One of the 200 edges (R133): the last one ends the measurement. -/
def calCountEdge (s : State) : State :=
  if s.edgeCount - 1 = 0 then finishCalibrate { s with edgeCount := 0 }
  else { s with edgeCount := s.edgeCount - 1 }

/-- A tick of `M_CAL_COUNT` (R133; 10_state.md R44). -/
def calCountTick (edge : Bool) (s : State) : State :=
  if edge then calCountEdge (countElapsed s) else countElapsed s

/-- DUMP_TIMING (R138); the selects 5, 6 and 7 are reserved (30_encoding.md R94). -/
def execDumpTiming (select : BitVec 3) (s : State) : Out :=
  match profileField s.profile select with
  | some value => .next (respond true value s)
  | none => .refused (.reservedFieldSelect select)

end Sys2Proof.Machine
end

