-- ==== Sys2Proof/Machine/Receive.lean ====
section
/-! DEFINITION. The host's operations on the receiver (43_receiver.md R195 to R201) and ParseFrame (R189 to R194). -/

namespace Sys2Proof.Machine

open Sys2Proof

/-- IS_COMMAND_READY (R195). -/
def execIsCommandReady (s : State) : Out := .next (respond true (rspOfFlag s.commandReady) s)

/-- IS_FRAME_READY (R196). -/
def execIsFrameReady (s : State) : Out := .next (respond true (rspOfFlag s.frameReadyFlag) s)

/-- CLEAR_COMMAND_READY (R197). -/
def execClearCommandReady (s : State) : Out := .next (clearFlags (respond true 0 s))

/-- GET_HOUSE (R198). -/
def execGetHouse (s : State) : Out := .next (respond true (s.rxHouse.setWidth 32) s)

/-- GET_UNIT (R199). -/
def execGetUnit (s : State) : Out := .next (respond true (s.rxUnit.setWidth 32) s)

/-- GET_COMMAND (R200). -/
def execGetCommand (s : State) : Out := .next (respond true (s.rxCommand.setWidth 32) s)

/-- GET_START (R201). -/
def execGetStart (s : State) : Out := .next (respond true (s.rxStart.setWidth 32) s)

/-- A unit frame of the baseline (R191). -/
def parseUnit (payload : PayloadPattern) (s : State) : State :=
  { s with rxUnit := romValue .p2u payload, commandReady := false }

/-- A command frame of the baseline (R190). -/
def parseCommand (payload : PayloadPattern) (s : State) : State :=
  { s with rxCommand := payload, commandReady := true }

/-- ParseFrame with `STRICT_VALIDATION = false` (R189): the frame's kind is bit 0 of its payload (30_encoding.md R81). -/
def parseBaseline (start : BitVec 4) (house : HousePattern) (payload : PayloadPattern) (s : State) : State :=
  let parsed := if payload.getLsbD 0 then parseCommand payload s else parseUnit payload s
  { parsed with rxHouse := patternToHouse house, rxStart := start }

/-- A unit frame under strict validation (R194). -/
def parseStrictUnit (start : BitVec 4) (house : HousePattern) (payload : PayloadPattern) (s : State) : State :=
  if startGood start then
    { s with
      commandReady := false
      rxUnit := romValue .p2u payload
      rxHouse := patternToHouse house
      unitPending := true
      unitHousePat := house }
  else { s with commandReady := false, unitPending := false }

/-- A command frame under strict validation (R194). -/
def parseStrictCommand (start : BitVec 4) (house : HousePattern) (payload : PayloadPattern) (s : State) : State :=
  if startGood start && s.unitPending && house == s.unitHousePat then
    { s with rxCommand := payload, rxHouse := patternToHouse house, commandReady := true }
  else { s with commandReady := false, unitPending := false }

/-- ParseFrame with `STRICT_VALIDATION = true` (R194). -/
def parseStrict (start : BitVec 4) (house : HousePattern) (payload : PayloadPattern) (s : State) : State :=
  let noted := { s with rxStart := start }
  if payload.getLsbD 0 then parseStrictCommand start house payload noted
  else parseStrictUnit start house payload noted

/-- ParseFrame (R189, R194). -/
def parseFrame (start : BitVec 4) (house : HousePattern) (payload : PayloadPattern) (s : State) : State :=
  if s.params.strictValidation then parseStrict start house payload s else parseBaseline start house payload s

/-- The end of the hold, in one tick and in this order: `frameReadyFlag <- 1`, `bitCount <- 0`, ParseFrame, and the
handler returns (R181, R188). -/
def frameReceived (start : BitVec 4) (house : HousePattern) (payload : PayloadPattern) (s : State) : State :=
  returnHandler (parseFrame start house payload { s with frameReadyFlag := true, bitCount := 0 })

end Sys2Proof.Machine
end

