-- ==== Sys2Proof/Machine/FrameWords.lean ====
section
/-! DEFINITION. The meanings of the 32 frame words (44_frame_words.md R220 to R251): what the core does when its receiver
has assembled the word and the hold has ended. How the core sends one is TRANSMIT's meaning (R253; log 8). -/

namespace Sys2Proof.Machine

open Sys2Proof

/-- F_UNIT_13 received (R220): unit word, payload 00000. -/
def execFUnit13 (start : BitVec 4) (house : HousePattern) (s : State) : Out :=
  .next (frameReceived start house 0x00 s)

/-- F_ALL_UNITS_OFF received (R221): command word, payload 00001. -/
def execFAllUnitsOff (start : BitVec 4) (house : HousePattern) (s : State) : Out :=
  .next (frameReceived start house 0x01 s)

/-- F_UNIT_5 received (R222): unit word, payload 00010. -/
def execFUnit5 (start : BitVec 4) (house : HousePattern) (s : State) : Out :=
  .next (frameReceived start house 0x02 s)

/-- F_ALL_LIGHTS_ON received (R223): command word, payload 00011. -/
def execFAllLightsOn (start : BitVec 4) (house : HousePattern) (s : State) : Out :=
  .next (frameReceived start house 0x03 s)

/-- F_UNIT_3 received (R224): unit word, payload 00100. -/
def execFUnit3 (start : BitVec 4) (house : HousePattern) (s : State) : Out :=
  .next (frameReceived start house 0x04 s)

/-- F_ON received (R225): command word, payload 00101. -/
def execFOn (start : BitVec 4) (house : HousePattern) (s : State) : Out :=
  .next (frameReceived start house 0x05 s)

/-- F_UNIT_11 received (R226): unit word, payload 00110. -/
def execFUnit11 (start : BitVec 4) (house : HousePattern) (s : State) : Out :=
  .next (frameReceived start house 0x06 s)

/-- F_OFF received (R227): command word, payload 00111. -/
def execFOff (start : BitVec 4) (house : HousePattern) (s : State) : Out :=
  .next (frameReceived start house 0x07 s)

/-- F_UNIT_15 received (R228): unit word, payload 01000. -/
def execFUnit15 (start : BitVec 4) (house : HousePattern) (s : State) : Out :=
  .next (frameReceived start house 0x08 s)

/-- F_DIM received (R229): command word, payload 01001. -/
def execFDim (start : BitVec 4) (house : HousePattern) (s : State) : Out :=
  .next (frameReceived start house 0x09 s)

/-- F_UNIT_7 received (R230): unit word, payload 01010. -/
def execFUnit7 (start : BitVec 4) (house : HousePattern) (s : State) : Out :=
  .next (frameReceived start house 0x0A s)

/-- F_BRIGHT received (R231): command word, payload 01011. -/
def execFBright (start : BitVec 4) (house : HousePattern) (s : State) : Out :=
  .next (frameReceived start house 0x0B s)

/-- F_UNIT_1 received (R232): unit word, payload 01100. -/
def execFUnit1 (start : BitVec 4) (house : HousePattern) (s : State) : Out :=
  .next (frameReceived start house 0x0C s)

/-- F_ALL_LIGHTS_OFF received (R233): command word, payload 01101. -/
def execFAllLightsOff (start : BitVec 4) (house : HousePattern) (s : State) : Out :=
  .next (frameReceived start house 0x0D s)

/-- F_UNIT_9 received (R234): unit word, payload 01110. -/
def execFUnit9 (start : BitVec 4) (house : HousePattern) (s : State) : Out :=
  .next (frameReceived start house 0x0E s)

/-- F_EXTENDED_CODE received (R235): command word, payload 01111. -/
def execFExtendedCode (start : BitVec 4) (house : HousePattern) (s : State) : Out :=
  .next (frameReceived start house 0x0F s)

/-- F_UNIT_14 received (R236): unit word, payload 10000. -/
def execFUnit14 (start : BitVec 4) (house : HousePattern) (s : State) : Out :=
  .next (frameReceived start house 0x10 s)

/-- F_HAIL_REQUEST received (R237): command word, payload 10001. -/
def execFHailRequest (start : BitVec 4) (house : HousePattern) (s : State) : Out :=
  .next (frameReceived start house 0x11 s)

/-- F_UNIT_6 received (R238): unit word, payload 10010. -/
def execFUnit6 (start : BitVec 4) (house : HousePattern) (s : State) : Out :=
  .next (frameReceived start house 0x12 s)

/-- F_HAIL_ACKNOWLEDGE received (R239): command word, payload 10011. -/
def execFHailAcknowledge (start : BitVec 4) (house : HousePattern) (s : State) : Out :=
  .next (frameReceived start house 0x13 s)

/-- F_UNIT_4 received (R240): unit word, payload 10100. -/
def execFUnit4 (start : BitVec 4) (house : HousePattern) (s : State) : Out :=
  .next (frameReceived start house 0x14 s)

/-- F_PRESET_DIM received (R241): command word, payload 10101. -/
def execFPresetDim (start : BitVec 4) (house : HousePattern) (s : State) : Out :=
  .next (frameReceived start house 0x15 s)

/-- F_UNIT_12 received (R242): unit word, payload 10110. -/
def execFUnit12 (start : BitVec 4) (house : HousePattern) (s : State) : Out :=
  .next (frameReceived start house 0x16 s)

/-- F_CMD_17 received (R243): command word, payload 10111. -/
def execFCmd17 (start : BitVec 4) (house : HousePattern) (s : State) : Out :=
  .next (frameReceived start house 0x17 s)

/-- F_UNIT_16 received (R244): unit word, payload 11000. -/
def execFUnit16 (start : BitVec 4) (house : HousePattern) (s : State) : Out :=
  .next (frameReceived start house 0x18 s)

/-- F_EXTENDED_DATA received (R245): command word, payload 11001. -/
def execFExtendedData (start : BitVec 4) (house : HousePattern) (s : State) : Out :=
  .next (frameReceived start house 0x19 s)

/-- F_UNIT_8 received (R246): unit word, payload 11010. -/
def execFUnit8 (start : BitVec 4) (house : HousePattern) (s : State) : Out :=
  .next (frameReceived start house 0x1A s)

/-- F_STATUS_ON received (R247): command word, payload 11011. -/
def execFStatusOn (start : BitVec 4) (house : HousePattern) (s : State) : Out :=
  .next (frameReceived start house 0x1B s)

/-- F_UNIT_2 received (R248): unit word, payload 11100. -/
def execFUnit2 (start : BitVec 4) (house : HousePattern) (s : State) : Out :=
  .next (frameReceived start house 0x1C s)

/-- F_STATUS_OFF received (R249): command word, payload 11101. -/
def execFStatusOff (start : BitVec 4) (house : HousePattern) (s : State) : Out :=
  .next (frameReceived start house 0x1D s)

/-- F_UNIT_10 received (R250): unit word, payload 11110. -/
def execFUnit10 (start : BitVec 4) (house : HousePattern) (s : State) : Out :=
  .next (frameReceived start house 0x1E s)

/-- F_STATUS_REQUEST received (R251): command word, payload 11111. -/
def execFStatusRequest (start : BitVec 4) (house : HousePattern) (s : State) : Out :=
  .next (frameReceived start house 0x1F s)

end Sys2Proof.Machine
end

