-- ==== Sys2Proof/Machine/Lookup.lean ====
section
/-! DEFINITION. The four code-table lookups (40_code_tables.md R116 to R119). They read no state and write none. -/

namespace Sys2Proof.Machine

open Sys2Proof

/-- HOUSE_TO_PATTERN (R116). -/
def execHouseToPattern (house : HouseCode) (s : State) : Out :=
  .next (respondLookup .h2p (house.setWidth 5) s)

/-- PATTERN_TO_HOUSE (R117). -/
def execPatternToHouse (pattern : HousePattern) (s : State) : Out :=
  .next (respondLookup .p2h (pattern.setWidth 5) s)

/-- UNIT_TO_PATTERN (R118): a miss for 0 and 17 to 31. -/
def execUnitToPattern (number : BitVec 5) (s : State) : Out :=
  .next (respondLookup .u2p number s)

/-- PATTERN_TO_UNIT (R119): a miss for a pattern with bit 0 = 1. -/
def execPatternToUnit (pattern : PayloadPattern) (s : State) : Out :=
  .next (respondLookup .p2u pattern s)

end Sys2Proof.Machine
end

