-- ==== Sys2Proof/Machine/Transmit.lean ====
section
/-! DEFINITION. TRANSMIT (42_transmitter.md R150 to R162): the meaning at acceptance, and the sequencer's statements after
it, as the positions of R162. -/

namespace Sys2Proof.Machine

open Sys2Proof

/-- After the last repetition: the guard, or for DIM and BRIGHT the end (R150 steps 3 and 4; R157). -/
def endRepetitions (s : State) : State :=
  if skipsGuard s.txPayload then rearm s else { s with mainState := .guard, edgeCount := guardEdges }

/-- The first slot of a repetition is waited for (R150 step 2; R162). -/
def startRepetition (s : State) : State :=
  { s with mainState := .txWait, txField := .start, txBit := 3, txHalf := .plain }

/-- The frame loop: one more repetition, or on to the guard (R150 step 2; R152; R159). -/
def nextRepetition (s : State) : State :=
  if s.txRepeat = 0 then endRepetitions s else startRepetition s

/-- The operand latches take the operands, the house through the ROM (R150, "at ta"; 30_encoding.md R82). -/
def latchOperands (house : HouseCode) (payload : PayloadPattern) (reps : BitVec 8) (s : State) : State :=
  { s with txHousePat := houseToPattern house, txPayload := payload, txRepeat := reps }

/-- TRANSMIT at its acceptance (R150, "at ta"); before any CALIBRATE it has no meaning (R151). -/
def execTransmit (house : HouseCode) (payload : PayloadPattern) (reps : BitVec 8) (s : State) : Out :=
  if s.calibrated then
    .next (nextRepetition (latchOperands house payload reps (disarm (respond true 0 s))))
  else .refused .transmitUncalibrated

/-- The wait for the slot of bit `bit` of `field` (R162). -/
def waitSlot (field : TxField) (bit : Fin 5) (half : TxHalf) (s : State) : State :=
  { s with mainState := .txWait, txField := field, txBit := bit, txHalf := half }

/-- The bit after this one in a field, or the field after this one, or the end of the repetition; in each case the next
half is `H_TRUE` (R153, R162). -/
def advanceBit (s : State) : State :=
  if s.txBit = 0 then
    match s.txField with
    | .start => waitSlot .house 3 .plain s
    | .house => waitSlot .payload 4 .plain s
    | .payload => nextRepetition { s with txHalf := .plain, txRepeat := s.txRepeat - 1 }
  else waitSlot s.txField (s.txBit - 1) .plain s

/-- Advance the slot (R162): every bit but the start code's is followed by its complement (R153, R156). -/
def advanceSlot (s : State) : State :=
  match s.txField, s.txHalf with
  | .start, _ => advanceBit s
  | _, .complement => advanceBit s
  | field, .plain => waitSlot field s.txBit .complement s

/-- One pulse of EmitSlot: drive the slot's bit and wait `bitLengthUs` ticks; a length of 0 goes straight on with
`after` (R155, R162). -/
def startPulse (phase : Fin 3) (after : State → State) (s : State) : State :=
  let driven := { s with txReg := slotBit s, txPhase := phase, mainTimer := s.profile.bitLengthUs }
  if s.profile.bitLengthUs = 0 then after driven else { driven with mainState := .txPulse }

/-- The end of a pulse that another follows: deassert and wait `bitDelayUs` ticks (R155, R162). -/
def startGap (after : State → State) (s : State) : State :=
  let low := { s with txReg := false, mainTimer := s.profile.bitDelayUs }
  if s.profile.bitDelayUs = 0 then after low else { low with mainState := .txGap }

/-- The end of the third pulse: deassert and advance the slot (R155, R162). -/
def endSlot (s : State) : State := advanceSlot { s with txReg := false }

/-- EmitSlot from its third pulse on (R155). -/
def emitThird (s : State) : State := startPulse 2 endSlot s

/-- EmitSlot from its second pulse on (R155). -/
def emitSecond (s : State) : State := startPulse 1 (startGap emitThird) s

/-- EmitSlot, entered at the edge that opens the slot (R154, R155). -/
def emitSlot (s : State) : State := startPulse 0 (startGap emitSecond) s

/-- The delay of a pulse ends (R162, `M_TX_PULSE`). -/
def pulseEnds (s : State) : State :=
  match s.txPhase with
  | 0 => startGap emitSecond s
  | 1 => startGap emitThird s
  | 2 => endSlot s

/-- The delay of a gap ends (R162, `M_TX_GAP`). No gap follows the third pulse; the last line is for a position no
run reaches (log 9). -/
def gapEnds (s : State) : State :=
  match s.txPhase with
  | 0 => emitSecond s
  | 1 => emitThird s
  | 2 => emitThird s

/-- One tick of the delay of a pulse or a gap (00_scope.md R9; R132). -/
def mainDelayTick (after : State → State) (s : State) : State :=
  if timerExpires s.mainTimer then after { s with mainTimer := 0 } else { s with mainTimer := s.mainTimer - 1 }

/-- An edge of the guard (R157, R162, `M_GUARD`). -/
def guardEdge (s : State) : State :=
  if s.edgeCount - 1 = 0 then rearm { s with edgeCount := 0 } else { s with edgeCount := s.edgeCount - 1 }

end Sys2Proof.Machine
end

