-- ==== Sys2Proof/Machine/Dispatch.lean ====
section
/-! DEFINITION. One arm per instruction, each one call of its meaning. -/

namespace Sys2Proof.Machine

open Sys2Proof

def exec (i : Instr) (s : State) : Host.Outcome State Fault Refusal :=
  match i with
  | .calibrate => Sys2Proof.Machine.execCalibrate s
  | .transmit house payload reps => Sys2Proof.Machine.execTransmit house payload reps s
  | .isCommandReady => Sys2Proof.Machine.execIsCommandReady s
  | .clearCommandReady => Sys2Proof.Machine.execClearCommandReady s
  | .getHouse => Sys2Proof.Machine.execGetHouse s
  | .getUnit => Sys2Proof.Machine.execGetUnit s
  | .getCommand => Sys2Proof.Machine.execGetCommand s
  | .dumpTiming select => Sys2Proof.Machine.execDumpTiming select s
  | .houseToPattern house => Sys2Proof.Machine.execHouseToPattern house s
  | .patternToHouse pattern => Sys2Proof.Machine.execPatternToHouse pattern s
  | .unitToPattern number => Sys2Proof.Machine.execUnitToPattern number s
  | .patternToUnit pattern => Sys2Proof.Machine.execPatternToUnit pattern s
  | .getStart => Sys2Proof.Machine.execGetStart s
  | .isFrameReady => Sys2Proof.Machine.execIsFrameReady s
  | .fUnit13 start house => Sys2Proof.Machine.execFUnit13 start house s
  | .fAllUnitsOff start house => Sys2Proof.Machine.execFAllUnitsOff start house s
  | .fUnit5 start house => Sys2Proof.Machine.execFUnit5 start house s
  | .fAllLightsOn start house => Sys2Proof.Machine.execFAllLightsOn start house s
  | .fUnit3 start house => Sys2Proof.Machine.execFUnit3 start house s
  | .fOn start house => Sys2Proof.Machine.execFOn start house s
  | .fUnit11 start house => Sys2Proof.Machine.execFUnit11 start house s
  | .fOff start house => Sys2Proof.Machine.execFOff start house s
  | .fUnit15 start house => Sys2Proof.Machine.execFUnit15 start house s
  | .fDim start house => Sys2Proof.Machine.execFDim start house s
  | .fUnit7 start house => Sys2Proof.Machine.execFUnit7 start house s
  | .fBright start house => Sys2Proof.Machine.execFBright start house s
  | .fUnit1 start house => Sys2Proof.Machine.execFUnit1 start house s
  | .fAllLightsOff start house => Sys2Proof.Machine.execFAllLightsOff start house s
  | .fUnit9 start house => Sys2Proof.Machine.execFUnit9 start house s
  | .fExtendedCode start house => Sys2Proof.Machine.execFExtendedCode start house s
  | .fUnit14 start house => Sys2Proof.Machine.execFUnit14 start house s
  | .fHailRequest start house => Sys2Proof.Machine.execFHailRequest start house s
  | .fUnit6 start house => Sys2Proof.Machine.execFUnit6 start house s
  | .fHailAcknowledge start house => Sys2Proof.Machine.execFHailAcknowledge start house s
  | .fUnit4 start house => Sys2Proof.Machine.execFUnit4 start house s
  | .fPresetDim start house => Sys2Proof.Machine.execFPresetDim start house s
  | .fUnit12 start house => Sys2Proof.Machine.execFUnit12 start house s
  | .fCmd17 start house => Sys2Proof.Machine.execFCmd17 start house s
  | .fUnit16 start house => Sys2Proof.Machine.execFUnit16 start house s
  | .fExtendedData start house => Sys2Proof.Machine.execFExtendedData start house s
  | .fUnit8 start house => Sys2Proof.Machine.execFUnit8 start house s
  | .fStatusOn start house => Sys2Proof.Machine.execFStatusOn start house s
  | .fUnit2 start house => Sys2Proof.Machine.execFUnit2 start house s
  | .fStatusOff start house => Sys2Proof.Machine.execFStatusOff start house s
  | .fUnit10 start house => Sys2Proof.Machine.execFUnit10 start house s
  | .fStatusRequest start house => Sys2Proof.Machine.execFStatusRequest start house s

end Sys2Proof.Machine
end

