-- ==== Sys2Proof/Machine/Handler.lean ====
section
/-! DEFINITION. The receive handler, RX_EDGE (43_receiver.md R181): what it does once started, up to the frame word it
runs when the hold of the 13th bit ends. -/

namespace Sys2Proof.Machine

open Sys2Proof

/-- The hold ends: the assembled frame word acts (R188, R189). -/
def completeFrame (s : State) : Out := exec (decodeFrame s.accumulatorBuffer) s

/-- Start detection (R185). -/
def detectStart (s : State) : State :=
  { s with accumulatorBuffer := 0x1000, bitMask := 0x0800, bitCount := 1, zeroCrossCount := 1 }

/-- The sampled bit goes in at the mask, which moves on; low is 1 (R187). -/
def storeBit (rx : Bool) (s : State) : State :=
  { s with
    accumulatorBuffer := if rx then s.accumulatorBuffer else s.accumulatorBuffer ||| s.bitMask
    bitMask := s.bitMask >>> 1
    bitCount := s.bitCount + 1 }

/-- The 13th bit is in: hold, or with `halfCycleDelayUs = 0` complete the frame at once (R188). -/
def startHold (s : State) : Out :=
  if holdTicks s = 0 then completeFrame s else .next (suspendHold s)

/-- The sample and what follows it in the same tick (R183, R185, R187, R188). -/
def sampleLine (rx : Bool) (s : State) : Out :=
  if s.bitCount = 0 then
    if rx then .next (returnHandler s) else .next (returnHandler (detectStart s))
  else if (storeBit rx s).bitCount = 13 then startHold (storeBit rx s)
  else .next (returnHandler (storeBit rx s))

/-- The offset delay before a sample; with `offsetDelayUs = 0` the sample is at once (R184). -/
def awaitSample (rx : Bool) (s : State) : Out :=
  if s.profile.offsetDelayUs = 0 then sampleLine rx s else .next (suspendOffset s)

/-- The handler's first statements, at the tick it is started (R181, R183, R186). -/
def startHandler (rx : Bool) (s : State) : Out :=
  if s.bitCount = 0 || samplesNow s.bitCount (enterHandler s).zeroCrossCount then awaitSample rx (enterHandler s)
  else .next (returnHandler (enterHandler s))

/-- A tick of the handler while it is suspended in a delay (R181). -/
def continueHandler (rx : Bool) (s : State) : Out :=
  if timerExpires s.rxTimer then
    match s.rxPhase with
    | .idle => .next s
    | .offset => sampleLine rx { s with rxTimer := 0 }
    | .hold => completeFrame { s with rxTimer := 0 }
  else .next (countRxTimer s)

end Sys2Proof.Machine
end

