-- ==== Sys2Proof/Machine/Sequencer.lean ====
section
/-! DEFINITION. One tick of the main sequencer, by the position it is suspended at (10_state.md R28; 41_timing_profile.md
R133; 42_transmitter.md R162). -/

namespace Sys2Proof.Machine

open Sys2Proof

/-- One tick of the main sequencer. -/
def sequencerTick (edge : Bool) (s : State) : State :=
  match s.mainState with
  | .idle => s
  | .calSync => if edge then calSyncEdge s else s
  | .calCount => calCountTick edge s
  | .txWait => if edge then emitSlot s else s
  | .txPulse => mainDelayTick pulseEnds s
  | .txGap => mainDelayTick gapEnds s
  | .guard => if edge then guardEdge s else s

end Sys2Proof.Machine
end

