-- ==== Sys2Proof/Machine/Tick.lean ====
section
/-! DEFINITION. One tick of the core (00_scope.md R8): the order of 60_exceptions.md R264, and reset (70_reset_and_hazards.md
R290). Conditions are read in `S(t)`, here `s`; `now` is the state as written so far in the tick. -/

namespace Sys2Proof.Machine

open Sys2Proof

/-- (2) The command port: a word presented at a tick that accepts it is decoded and runs; one with a reserved op code has
no meaning (30_encoding.md R91, R94); one presented otherwise is dropped (70_reset_and_hazards.md R300). -/
def hostPhase (inp : Inputs) (s now : State) : Out :=
  if accepts inp s then
    match decodeCommand inp.opWord with
    | .ok i => exec i now
    | .error _ => .refused (.reservedOpCode (opCode inp.opWord))
  else .next now

/-- A blocking operation is accepted at this tick (60_exceptions.md R263). -/
def blockingAccepted (inp : Inputs) (s : State) : Bool :=
  accepts inp s &&
    match decodeCommand inp.opWord with
    | .ok i => isBlocking i
    | .error _ => false

/-- (3) The main sequencer, if it is active; one just started has made its first statements in (2). -/
def mainPhase (edge : Bool) (s now : State) : State :=
  if s.mainState = .idle then now else sequencerTick edge now

/-- (4) The handler starts or continues (60_exceptions.md R263, R267). -/
def handlerPhase (inp : Inputs) (edge blocking : Bool) (s now : State) : Out :=
  if handlerStarts edge blocking s then startHandler inp.rxIn now
  else if s.rxPhase = .idle then .next now
  else continueHandler inp.rxIn now

/-- (5) The pending latch (60_exceptions.md R265). -/
def pendingPhase (edge blocking : Bool) (s now : State) : State :=
  { now with zcPending := nextPending edge blocking s now.zcPending }

/-- One tick with these levels. -/
def tickWith (inp : Inputs) (s : State) : Out :=
  if inp.rst then .next (resetTick inp s)
  else
    andThen (hostPhase inp s (beginTick inp s)) fun hosted =>
      andThen
        (handlerPhase inp (edgeNow inp s) (blockingAccepted inp s) s (mainPhase (edgeNow inp s) s hosted))
        fun handled => .next (pendingPhase (edgeNow inp s) (blockingAccepted inp s) s handled)

/-- The levels that present the command word `w` at a tick without an edge and with the data line high. -/
def presentWord (w : CommandWord) (s : State) : Inputs :=
  { rst := false, zcIn := s.zcPrev, rxIn := true, opValid := true, opWord := w }

/-- The levels of a tick without an edge, with the data line high and no word presented. -/
def quietInputs (s : State) : Inputs :=
  { rst := false, zcIn := s.zcPrev, rxIn := true, opValid := false, opWord := 0 }

/-- The core idle, and the command word `w` presented at its next tick (log 5). -/
def placeCommand (w : CommandWord) (s : State) : State :=
  { s with mainState := .idle, rxPhase := .idle, inputs := presentWord w s :: s.inputs }

/-- The frame `f` assembled and the last tick of its hold next (log 5). -/
def placeFrame (f : Frame) (s : State) : State :=
  { s with
    mainState := .idle
    rxPhase := .hold
    rxTimer := 1
    bitCount := 13
    accumulatorBuffer := f
    inputs := quietInputs s :: s.inputs }

end Sys2Proof.Machine
end

