-- ==== Sys2Proof/Machine/Step.lean ====
section
/-! DEFINITION. The step of the core, one tick, and where an instruction is placed for the next step to run it. -/

namespace Sys2Proof.Machine

open Sys2Proof

/-- `S(t+1) = Step(S(t), In(t))` (00_scope.md R8). -/
def step (s : State) : Host.Outcome State Fault Refusal := tickWith (currentInputs s) s

/-- The state with the word `w` placed where the next step runs it: a command word on the command port, a frame word in
the receiver; bits that are no word change nothing (log 5). -/
def State.withFetchWord (s : State) (nbits w : Nat) : State :=
  match wordOfBits nbits w with
  | .ok (.command c) => placeCommand c s
  | .ok (.frame f) => placeFrame f s
  | .error _ => s

end Sys2Proof.Machine
end

