-- ==== Sys2Proof/Safety.lean ====
section
/-! DEFINITION. The terms the claims use: the tables and forms of the spec written out once more from its text, what a
waiting sequencer is, and the invariants of the core. -/

namespace Sys2Proof.Safety

open Sys2Proof Sys2Proof.Machine

/-! ### Runs -/

/-- `k` ticks of the core. -/
def run (k : Nat) (s : State) : Out := Host.Core.run Sys2Proof.core k s

/-- The first `n` ticks have placed levels, and none of them resets the core. -/
def noReset (n : Nat) (s : State) : Prop :=
  n ≤ s.inputs.length ∧ ∀ inp ∈ s.inputs.take n, inp.rst = false

/-- The number of edges a sequence of levels holds after the level `prev` (10_state.md R40). -/
def edgesIn : Bool → List Inputs → Nat
  | _, [] => 0
  | prev, inp :: rest => (if inp.zcIn = prev then 0 else 1) + edgesIn inp.zcIn rest

/-! ### Tables and words as the spec writes them -/

/-- `H2P` for A to P (40_code_tables.md R111). -/
def housePatterns : List (BitVec 4) :=
  [0x6, 0xE, 0x2, 0xA, 0x1, 0x9, 0x5, 0xD, 0x7, 0xF, 0x3, 0xB, 0x0, 0x8, 0x4, 0xC]

/-- `P2H` for the patterns 0000 to 1111 (40_code_tables.md R112). -/
def patternHouses : List (BitVec 4) :=
  [12, 4, 2, 10, 14, 6, 0, 8, 13, 5, 3, 11, 15, 7, 1, 9]

/-- `U2P` for the units 1 to 16 (40_code_tables.md R113). -/
def unitPatterns : List (BitVec 5) :=
  [0x0C, 0x1C, 0x04, 0x14, 0x02, 0x12, 0x0A, 0x1A, 0x0E, 0x1E, 0x06, 0x16, 0x00, 0x10, 0x08, 0x18]

/-- `P2U` for the patterns 00000, 00010, ... 11110 (40_code_tables.md R114). -/
def patternUnits : List (BitVec 5) :=
  [13, 5, 3, 11, 15, 7, 1, 9, 14, 6, 4, 12, 16, 8, 2, 10]

/-- `H2P[house]`. -/
def housePatternOf (house : BitVec 4) : BitVec 4 := housePatterns.getD house.toNat 0

/-- `P2H[pattern]`. -/
def houseOf (pattern : BitVec 4) : BitVec 4 := patternHouses.getD pattern.toNat 0

/-- `U2P[number]`, where `number` is 1 to 16. -/
def unitPatternOf (number : BitVec 5) : BitVec 5 := unitPatterns.getD (number.toNat - 1) 0

/-- `P2U[pattern]`, where `pattern` has bit 0 = 0. -/
def unitOf (pattern : BitVec 5) : BitVec 5 := patternUnits.getD (pattern.toNat / 2) 0

/-- `Slots(f)`, the 22 slots of a frame (30_encoding.md R85). -/
def slots (f : Frame) : List Bool :=
  [f.getLsbD 12, f.getLsbD 11, f.getLsbD 10, f.getLsbD 9,
   f.getLsbD 8, !f.getLsbD 8, f.getLsbD 7, !f.getLsbD 7, f.getLsbD 6, !f.getLsbD 6, f.getLsbD 5, !f.getLsbD 5,
   f.getLsbD 4, !f.getLsbD 4, f.getLsbD 3, !f.getLsbD 3, f.getLsbD 2, !f.getLsbD 2, f.getLsbD 1, !f.getLsbD 1,
   f.getLsbD 0, !f.getLsbD 0]

/-- Inside one of the three pulses of a slot, `k` ticks after the tick that follows its edge (42_transmitter.md R155). -/
def inPulse (len gap k : Nat) : Bool :=
  k < len || (len + gap ≤ k && k < 2 * len + gap) || (2 * (len + gap) ≤ k && k < 3 * len + 2 * gap)

/-- The bit the transmitter sends in the slot of `field`, `bit` and `half` (42_transmitter.md R150, R153). -/
def sentBit (s : State) : Bool :=
  let plain := match s.txField with
    | .start => (0b1110#4).getLsbD s.txBit
    | .house => s.txHousePat.getLsbD s.txBit
    | .payload => s.txPayload.getLsbD s.txBit
  if s.txHalf = .complement then !plain else plain

/-! ### What happens at a tick -/

/-- The core accepts a command word at this tick (30_encoding.md R91; 10_state.md R21). -/
def acceptsNow (s : State) : Prop :=
  (currentInputs s).rst = false ∧ (currentInputs s).opValid = true ∧ s.mainState = .idle ∧ s.rxPhase = .idle

/-- `op_code` of the word presented at this tick (30_encoding.md R91). -/
def presentedCode (s : State) : BitVec 4 := (currentInputs s).opWord.extractLsb' 17 4

/-- A blocking operation, CALIBRATE or TRANSMIT, is accepted at this tick (30_encoding.md R92). -/
def blockingNow (s : State) : Prop := acceptsNow s ∧ (presentedCode s = 0x1 ∨ presentedCode s = 0x2)

/-- CLEAR_COMMAND_READY is accepted at this tick. -/
def clearsNow (s : State) : Prop := acceptsNow s ∧ presentedCode s = 0x4

/-- A word to which the spec gives no meaning is accepted at this tick (30_encoding.md R94; 42_transmitter.md R151). -/
def refusesNow (s : State) : Prop :=
  acceptsNow s ∧ (presentedCode s = 0x0 ∨ presentedCode s = 0xF ∨
    (presentedCode s = 0x8 ∧ 5 ≤ ((currentInputs s).opWord.extractLsb' 8 3).toNat) ∨
    (presentedCode s = 0x2 ∧ s.calibrated = false))

/-- `zc_in` changes its level at this tick (10_state.md R40). -/
def edgeAt (s : State) : Prop := (currentInputs s).zcIn ≠ s.zcPrev

/-- The handler starts at this tick (60_exceptions.md R263). -/
def startsNow (s : State) : Prop :=
  s.rxArmed = true ∧ s.rxPhase = .idle ∧ (edgeAt s ∨ s.zcPending = true) ∧ ¬ blockingNow s

/-- A crossing the handler samples: in Idle every one, else by 43_receiver.md R186. -/
def samplesCrossing (s : State) : Prop :=
  s.bitCount = 0 ∨ s.bitCount.toNat < 5 ∨ (s.zeroCrossCount.toNat + 1) % 2 = 1

/-- The handler reads `rx_in` at this tick: its offset delay ends, or is 0 (43_receiver.md R184). That a delay ends at the
tick that finds its timer at 1, or at 0, is the model's choice (log 9). -/
def readsLine (s : State) : Prop :=
  (s.rxPhase = .offset ∧ s.rxTimer.toNat ≤ 1) ∨
    (startsNow s ∧ samplesCrossing s ∧ s.profile.offsetDelayUs = 0)

/-- The frame assembly is the same (10_state.md R35 to R38). -/
def sameAssembly (s t : State) : Prop :=
  t.bitCount = s.bitCount ∧ t.zeroCrossCount = s.zeroCrossCount ∧ t.bitMask = s.bitMask ∧
    t.accumulatorBuffer = s.accumulatorBuffer

/-- The result registers are the same (10_state.md R23 to R26, R39). -/
def sameResults (s t : State) : Prop :=
  t.rxHouse = s.rxHouse ∧ t.rxUnit = s.rxUnit ∧ t.rxCommand = s.rxCommand ∧ t.rxStart = s.rxStart ∧
    t.unitPending = s.unitPending ∧ t.unitHousePat = s.unitHousePat

/-- The two flags are the same (10_state.md R30, R31). -/
def sameFlags (s t : State) : Prop :=
  t.frameReadyFlag = s.frameReadyFlag ∧ t.commandReady = s.commandReady

/-! ### Frame words as received -/

/-- A unit word received in the baseline (43_receiver.md R188, R191 to R193). -/
def unitReceived (number : BitVec 5) (start house : BitVec 4) (s : State) : State :=
  { s with
    frameReadyFlag := true
    bitCount := 0
    rxPhase := .idle
    rxUnit := number
    commandReady := false
    rxHouse := houseOf house
    rxStart := start }

/-- A command word received in the baseline (43_receiver.md R188, R190, R192, R193). -/
def commandReceived (pattern : BitVec 5) (start house : BitVec 4) (s : State) : State :=
  { s with
    frameReadyFlag := true
    bitCount := 0
    rxPhase := .idle
    rxCommand := pattern
    commandReady := true
    rxHouse := houseOf house
    rxStart := start }

/-- A unit word received under strict validation (43_receiver.md R194). -/
def strictUnitReceived (number : BitVec 5) (start house : BitVec 4) (s : State) : State :=
  if start = 0b1110 then { unitReceived number start house s with unitPending := true, unitHousePat := house }
  else
    { s with
      frameReadyFlag := true
      bitCount := 0
      rxPhase := .idle
      commandReady := false
      unitPending := false
      rxStart := start }

/-- A command word received under strict validation (43_receiver.md R194). -/
def strictCommandReceived (pattern : BitVec 5) (start house : BitVec 4) (s : State) : State :=
  if start = 0b1110 ∧ s.unitPending = true ∧ house = s.unitHousePat then commandReceived pattern start house s
  else
    { s with
      frameReadyFlag := true
      bitCount := 0
      rxPhase := .idle
      commandReady := false
      unitPending := false
      rxStart := start }

/-! ### The slots of a frame at the receiver (43_receiver.md R202; 30_encoding.md R88) -/

/-- The levels from one edge to the next: `zc_in` stays at `level`, no reset and no word is presented. -/
def slotLevels (level : Bool) (window : List Inputs) : Prop :=
  ∀ inp ∈ window, inp.rst = false ∧ inp.opValid = false ∧ inp.zcIn = level

/-- The frame bit that slot `k`, counted from 0, is sampled for (43_receiver.md R202, column "stored in bit"). -/
def bitOfSlot (k : Nat) : Option Nat :=
  if k < 5 then some (12 - k) else if k % 2 = 0 ∧ k ≤ 20 then some (10 - k / 2) else none

/-- The 21 windows show the frame `f` to a receiver that samples `offset` ticks after each edge: each window lasts to the
sample at least, the line changes level at each, and at each sample `rx_in` is low exactly for a bit 1. -/
def showsFrame (f : Frame) (offset : Nat) (prev : Bool) (windows : List (List Inputs)) : Prop :=
  windows.length = 21 ∧ ∀ k window, windows[k]? = some window →
    offset < window.length ∧ slotLevels (prev ^^ (k % 2 == 0)) window ∧
      ∀ b inp, bitOfSlot k = some b → window[offset]? = some inp → inp.rxIn = !f.getLsbD b

/-! ### Edge waits still to come (42_transmitter.md R160; 41_timing_profile.md R133) -/

/-- The sequencer is suspended at a `wait_edge`. -/
def waitsForEdge (s : State) : Bool :=
  s.mainState == .calSync || s.mainState == .calCount || s.mainState == .txWait || s.mainState == .guard

/-- The edges of the guard this TRANSMIT waits for: none for DIM and BRIGHT (42_transmitter.md R157). -/
def guardWaits (payload : PayloadPattern) : Nat := if payload = 0b01001 ∨ payload = 0b01011 then 0 else 6

/-- The slots of this repetition from the current one on: 22 in all, each data bit two (30_encoding.md R84). -/
def slotsFrom (field : TxField) (bit : Nat) (half : TxHalf) : Nat :=
  match field with
  | .start => bit + 1 + 18
  | .house => 2 * bit + (if half = .plain then 2 else 1) + 10
  | .payload => 2 * bit + (if half = .plain then 2 else 1)

/-- The edge waits the sequencer still has to complete. -/
def edgeWaitsLeft (s : State) : Nat :=
  match s.mainState with
  | .idle => 0
  | .calSync => 201
  | .calCount => s.edgeCount.toNat
  | .txWait => slotsFrom s.txField s.txBit s.txHalf + 22 * (s.txRepeat.toNat - 1) + guardWaits s.txPayload
  | .txPulse => slotsFrom s.txField s.txBit s.txHalf - 1 + 22 * (s.txRepeat.toNat - 1) + guardWaits s.txPayload
  | .txGap => slotsFrom s.txField s.txBit s.txHalf - 1 + 22 * (s.txRepeat.toNat - 1) + guardWaits s.txPayload
  | .guard => s.edgeCount.toNat

/-! ### Invariants -/

/-- The sequencer is sending a frame. -/
def sending (s : State) : Bool := s.mainState == .txWait || s.mainState == .txPulse || s.mainState == .txGap

/-- Who may be active together (60_exceptions.md R263, R268; 42_transmitter.md R151; 10_state.md R41). -/
structure ControlInv (s : State) : Prop where
  /-- `rxArmed = 1` implies `mainState = M_IDLE` (60_exceptions.md R263). -/
  armed_idle : s.rxArmed = true → s.mainState = .idle
  /-- The handler runs only while the receiver is armed (60_exceptions.md R266, R267). -/
  running_armed : s.rxPhase ≠ .idle → s.rxArmed = true
  /-- Only a completed CALIBRATE or TRANSMIT arms the receiver (10_state.md R33). -/
  armed_calibrated : s.rxArmed = true → s.calibrated = true
  /-- A TRANSMIT is accepted only after a CALIBRATE (42_transmitter.md R151). -/
  sending_calibrated : sending s = true ∨ s.mainState = .guard → s.calibrated = true
  /-- An edge is latched only while the receiver is armed, and only by a core that latches (60_exceptions.md R265). -/
  pending_armed : s.zcPending = true → s.rxArmed = true ∧ s.params.zcPendingLatch = true

/-- The edges counted in the current frame fit the bits stored (10_state.md R36; 43_receiver.md R202). -/
def crossCountFits (s : State) : Prop :=
  let b := s.bitCount.toNat
  let z := s.zeroCrossCount.toNat
  if b = 0 then z = 0 ∨ z = 21
  else if b < 5 then z = if s.rxPhase = .idle then b else b + 1
  else if b < 13 then (if s.rxPhase = .idle then z + 5 = 2 * b ∨ z + 4 = 2 * b else z + 3 = 2 * b)
  else z = 21

/-- ReceiveState while and after a frame is assembled (10_state.md R29, R35 to R38; 43_receiver.md R182, R202). -/
structure ReceiverInv (s : State) : Prop where
  count_le : s.bitCount.toNat ≤ 13
  /-- `bitCount = 13` exactly during the hold (10_state.md R35). -/
  hold_iff : s.bitCount = 13 ↔ s.rxPhase = .hold
  /-- The mask is one-hot on the next bit, 0 after the 13th sample (10_state.md R37). -/
  mask : s.bitMask = if s.bitCount = 0 then 0 else 0x1000#13 >>> s.bitCount.toNat
  /-- The first bit is forced to 1 (43_receiver.md R185). -/
  first_bit : s.bitCount ≠ 0 → s.accumulatorBuffer.getLsbD 12 = true
  /-- The bits not yet sampled are 0 (43_receiver.md R187). -/
  unsampled : s.bitCount ≠ 0 → ∀ j, j + s.bitCount.toNat < 13 → s.accumulatorBuffer.getLsbD j = false
  cross_count : crossCountFits s
  /-- `rxTimer` holds the ticks left of the delay (10_state.md R29), counted from its length down to 1, which is the model's
  choice (log 9). -/
  offset_timer : s.rxPhase = .offset → 1 ≤ s.rxTimer.toNat ∧ s.rxTimer.toNat ≤ s.profile.offsetDelayUs.toNat
  hold_timer : s.rxPhase = .hold → 1 ≤ s.rxTimer.toNat ∧ s.rxTimer.toNat ≤ 5 * s.profile.halfCycleDelayUs.toNat

/-- The positions of the main sequencer (10_state.md R28; 42_transmitter.md R162; 60_exceptions.md R262). -/
structure SequencerInv (s : State) : Prop where
  /-- The line is driven only inside a pulse (60_exceptions.md R262). -/
  driven_in_pulse : s.txReg = true → s.mainState = .txPulse
  /-- Inside a pulse the line shows the slot's bit (42_transmitter.md R155). -/
  pulse_level : s.mainState = .txPulse → s.txReg = sentBit s
  /-- Start code and house have 4 bits (42_transmitter.md R150). -/
  bit_range : sending s = true → s.txField ≠ .payload → s.txBit.val ≤ 3
  /-- The start code has no complement slot (42_transmitter.md R156). -/
  start_plain : sending s = true → s.txField = .start → s.txHalf = .plain
  repeats_left : sending s = true → s.txRepeat ≠ 0
  /-- There is no gap after the third pulse (42_transmitter.md R155). -/
  gap_phase : s.mainState = .txGap → s.txPhase ≠ 2
  pulse_timer : s.mainState = .txPulse → 1 ≤ s.mainTimer.toNat ∧ s.mainTimer.toNat ≤ s.profile.bitLengthUs.toNat
  gap_timer : s.mainState = .txGap → 1 ≤ s.mainTimer.toNat ∧ s.mainTimer.toNat ≤ s.profile.bitDelayUs.toNat
  /-- The guard counts 6 edges, and DIM and BRIGHT have none (42_transmitter.md R157). -/
  guard_count : s.mainState = .guard → 1 ≤ s.edgeCount.toNat ∧ s.edgeCount.toNat ≤ 6 ∧ guardWaits s.txPayload = 6
  /-- Calibration counts 200 edges, at most one a tick (41_timing_profile.md R135). -/
  cal_count : s.mainState = .calCount →
    1 ≤ s.edgeCount.toNat ∧ s.edgeCount.toNat ≤ 200 ∧ 200 ≤ s.edgeCount.toNat + s.calElapsed.toNat

/-- The four constants of a profile are those of a parameter set. -/
def hasSet (profile : TimingProfile) (set : ParamSet) : Prop :=
  profile.bitLengthUs = set.bitLengthUs ∧ profile.bitDelayUs = set.bitDelayUs ∧
    profile.offsetDelayUs = set.offsetDelayUs ∧ profile.halfCycleDelayUs = set.halfCycleDelayUs

/-- After a CALIBRATE exactly one of the two sets is selected, by the 54 Hz boundary (10_state.md R34;
41_timing_profile.md R136). -/
def ProfileInv (s : State) : Prop :=
  s.calibrated = true →
    if s.profile.mainsFrequencyHz.toNat < 54 then hasSet s.profile s.params.p50 else hasSet s.profile s.params.p60

/-- What the result registers and flags say of each other (10_state.md R24 to R26, R31, R39; 43_receiver.md R194). -/
structure ResultInv (s : State) : Prop where
  /-- A `UnitCode` 1 to 16, or 0 (10_state.md R24). -/
  unit_le : s.rxUnit.toNat ≤ 16
  /-- A ready command has bit 0 = 1 (10_state.md R25). -/
  command_odd : s.commandReady = true → s.rxCommand.getLsbD 0 = true
  /-- The start nibble of a parsed frame has bit 3 = 1 (10_state.md R26). -/
  start_forced : s.frameReadyFlag = true ∨ s.commandReady = true → s.rxStart.getLsbD 3 = true
  /-- Only strict validation uses `unitPending` (10_state.md R39). -/
  pending_strict : s.unitPending = true → s.params.strictValidation = true
  /-- Under strict validation a ready pair has the start code and one house (43_receiver.md R194). -/
  strict_pair : s.params.strictValidation = true → s.commandReady = true →
    s.rxStart = 0b1110 ∧ s.unitPending = true ∧ s.rxHouse = houseOf s.unitHousePat

/-- All of them. -/
structure Inv (s : State) : Prop where
  control : ControlInv s
  receiver : ReceiverInv s
  sequencer : SequencerInv s
  profile : ProfileInv s
  result : ResultInv s

end Sys2Proof.Safety
end

