-- ==== Sys2Proof/Certificates/Slice0/Obligations.lean ====
section
/-! DEFINITION. The statements for the provers. A statement about `step` reads the levels of the tick through
`currentInputs`, which the state places or the environment drives freely, so it holds for every environment. -/

open Sys2Proof Sys2Proof.Machine Sys2Proof.Safety

/-! ### Encoding -/

/-- Decoding the word of an instruction gives the instruction back, for every operand (30_encoding.md R80, R91, R92). -/
def Obligations.DecodeEncodeAgree : Prop :=
  ∀ i : Instr, decode (encode i) = .ok i

/-- Every 13-bit value is the word of exactly the instruction it decodes to, so no two values share one
(30_encoding.md R95; 44_frame_words.md R252). -/
def Obligations.FramesDecodeWithoutOverlap : Prop :=
  ∀ f g : Frame, encode (decodeFrame f) = .frame f ∧ (decodeFrame f = decodeFrame g → f = g)

/-- The op code selects the operation, each operand comes from its field, and every other field is ignored
(30_encoding.md R91, R92). -/
def Obligations.CommandWordsDecodeByOpCode : Prop :=
  ∀ w : CommandWord,
    let code := w.extractLsb' 17 4
    let house := w.extractLsb' 13 4
    let payload := w.extractLsb' 8 5
    let reps := w.extractLsb' 0 8
    (code = 0x0 → decodeCommand w = .error (.reservedOpCode 0x0)) ∧
    (code = 0x1 → decodeCommand w = .ok .calibrate) ∧
    (code = 0x2 → decodeCommand w = .ok (.transmit house payload reps)) ∧
    (code = 0x3 → decodeCommand w = .ok .isCommandReady) ∧
    (code = 0x4 → decodeCommand w = .ok .clearCommandReady) ∧
    (code = 0x5 → decodeCommand w = .ok .getHouse) ∧
    (code = 0x6 → decodeCommand w = .ok .getUnit) ∧
    (code = 0x7 → decodeCommand w = .ok .getCommand) ∧
    (code = 0x8 → decodeCommand w = .ok (.dumpTiming (w.extractLsb' 8 3))) ∧
    (code = 0x9 → decodeCommand w = .ok (.houseToPattern house)) ∧
    (code = 0xA → decodeCommand w = .ok (.patternToHouse house)) ∧
    (code = 0xB → decodeCommand w = .ok (.unitToPattern payload)) ∧
    (code = 0xC → decodeCommand w = .ok (.patternToUnit payload)) ∧
    (code = 0xD → decodeCommand w = .ok .getStart) ∧
    (code = 0xE → decodeCommand w = .ok .isFrameReady) ∧
    (code = 0xF → decodeCommand w = .error (.reservedOpCode 0xF))

/-- Words written out from the encodings of 30_encoding.md R80, R91, R92 and 44_frame_words.md R225, R232, R251. That the 21
and 13 bits stand in 24 and 16 with zeros above them is the model's choice (log 19), which no rule gives. -/
def Obligations.WrittenOutWordsDecode : Prop :=
  decodeTableWord 24 0b0001_0000_00000_00000000 = some .calibrate ∧
  decodeTableWord 24 0b0010_0110_01100_00000011 = some (.transmit 6 0b01100 3) ∧
  decodeTableWord 24 0b0100_1111_11111_11111111 = some .clearCommandReady ∧
  decodeTableWord 24 0b1000_0000_11100_00000000 = some (.dumpTiming 4) ∧
  decodeTableWord 24 0b1010_0110_00000_00000000 = some (.patternToHouse 0b0110) ∧
  decodeTableWord 24 0b1011_0000_10000_00000000 = some (.unitToPattern 16) ∧
  decodeTableWord 24 0b1111_0000_00000_00000000 = none ∧
  decodeTableWord 16 0b1110_0110_00101 = some (.fOn 0b1110 0b0110) ∧
  decodeTableWord 16 0b1110_1100_01100 = some (.fUnit1 0b1110 0b1100) ∧
  decodeTableWord 16 0b1001_0110_11111 = some (.fStatusRequest 0b1001 0b0110)

/-! ### The step -/

/-- A word accepted at the command port runs as the instruction it decodes to, on the state whose tick has begun. Around
it the handler may start, unless the operation blocks, and the pending latch is updated (60_exceptions.md R264). Where
the line shows no edge and none is latched, and for every blocking operation, the step is the instruction alone. -/
def Obligations.StepRunsTheAcceptedWord : Prop :=
  ∀ (s : State) (i : Instr), acceptsNow s → decodeCommand (currentInputs s).opWord = .ok i →
    let inp := currentInputs s
    let edge := edgeNow inp s
    step s =
      andThen (exec i (beginTick inp s)) (fun hosted =>
        andThen (if handlerStarts edge (isBlocking i) s then startHandler inp.rxIn hosted else .next hosted)
          fun handled => .next (pendingPhase edge (isBlocking i) s handled)) ∧
    (edge = false → s.zcPending = false → step s = exec i (beginTick inp s)) ∧
    (isBlocking i = true → step s = exec i (beginTick inp s))

/-- Where the hold of an assembled frame ends, the step runs the frame word the accumulator holds, and updates the pending
latch (43_receiver.md R188, R189; 60_exceptions.md R264). That the hold ends at the tick that finds `rxTimer` at 1, or at 0,
and that the frame word acts on a state with `rxTimer = 0`, is the model's choice (log 9). -/
def Obligations.StepRunsTheAssembledFrame : Prop :=
  ∀ s : State, (currentInputs s).rst = false → s.mainState = .idle → s.rxPhase = .hold → s.rxTimer.toNat ≤ 1 →
    let inp := currentInputs s
    let edge := edgeNow inp s
    step s =
      andThen (exec (decodeFrame s.accumulatorBuffer) { beginTick inp s with rxTimer := 0 })
        (fun handled => .next (pendingPhase edge false s handled)) ∧
    (edge = false → s.zcPending = false →
      step s = exec (decodeFrame s.accumulatorBuffer) { beginTick inp s with rxTimer := 0 })

/-- A tick of which the command port accepts a reserved encoding is refused by name (30_encoding.md R94). -/
def Obligations.ReservedWordsAreRefused : Prop :=
  ∀ s : State, acceptsNow s →
    (presentedCode s = 0x0 ∨ presentedCode s = 0xF → step s = .refused (.reservedOpCode (presentedCode s))) ∧
    (presentedCode s = 0x8 → 5 ≤ ((currentInputs s).opWord.extractLsb' 8 3).toNat →
      step s = .refused (.reservedFieldSelect ((currentInputs s).opWord.extractLsb' 8 3)))

/-- Every tick has a next state but one whose command port accepts a word without a meaning; no tick faults
(60_exceptions.md R260, R261). -/
def Obligations.StepStopsOnlyWhereTheSpecRefuses : Prop :=
  ∀ s : State, ((∃ t, step s = .next t) ↔ ¬ refusesNow s) ∧ ∀ r, step s ≠ .fault r

/-- A word presented while the core is busy or in reset changes nothing: two states that differ only in the word presented
at this tick step alike (30_encoding.md R91; 70_reset_and_hazards.md R290, R300). -/
def Obligations.WordsPresentedWhileBusyAreDropped : Prop :=
  ∀ (s : State) (inp : Inputs) (rest : List Inputs) (valid : Bool) (word : CommandWord), s.inputs = inp :: rest →
    (s.mainState ≠ .idle ∨ s.rxPhase ≠ .idle ∨ inp.rst = true) →
    step { s with inputs := { inp with opValid := valid, opWord := word } :: rest } = step s

/-- The line `rx_in` is looked at only at the tick the handler samples: two states that differ only in its level at another
tick step alike (43_receiver.md R184; 60_exceptions.md R266). -/
def Obligations.TheLineIsReadOnlyAtTheSample : Prop :=
  ∀ (s : State) (inp : Inputs) (rest : List Inputs) (level : Bool), ControlInv s → s.inputs = inp :: rest →
    ¬ readsLine s → step { s with inputs := { inp with rxIn := level } :: rest } = step s

/-- `zcPrev` takes the level of `zc_in` at every tick (10_state.md R40); the parameters never change; the model's own
tick number and queue of placed levels move on by one (logs 1 and 2, the model's choice). -/
def Obligations.EveryTickFollowsTheLine : Prop :=
  ∀ s t : State, step s = .next t →
    t.zcPrev = (currentInputs s).zcIn ∧ t.params = s.params ∧ t.tick = s.tick + 1 ∧ t.inputs = s.inputs.tail

/-! ### Reset -/

/-- From any state a tick with `rst = 1` leaves the values 10_state.md R46 states, and `zcPrev` at the level of `zc_in`. -/
def Obligations.ResetTickGivesTheResetState : Prop :=
  ∀ s : State, (currentInputs s).rst = true → ∃ t, step s = .next t ∧
    t.mainState = .idle ∧ t.rxPhase = .idle ∧ t.rxArmed = false ∧ t.calibrated = false ∧ t.frameReadyFlag = false ∧
    t.commandReady = false ∧ t.bitCount = 0 ∧ t.zeroCrossCount = 0 ∧ t.bitMask = 0 ∧ t.accumulatorBuffer = 0 ∧
    t.unitPending = false ∧ t.zcPending = false ∧ t.txReg = false ∧ t.zcPrev = (currentInputs s).zcIn

/-- The reset state of the model has the invariant. The clause `rxUnit ≤ 16` rests on the model's choice of the reset value
(log 3), as 10_state.md R46 leaves `rxUnit` open. -/
def Obligations.ResetStateHasTheInvariant : Prop := Inv State.reset

/-- So has every state a reset tick leaves, whatever state came before (log 3 as above). -/
def Obligations.ResetTickEstablishesTheInvariant : Prop :=
  ∀ s t : State, (currentInputs s).rst = true → step s = .next t → Inv t

/-! ### Invariants -/

/-- Every step keeps the exclusion of the two processes: armed means the sequencer is idle, the handler runs only while armed,
nothing is armed or sent before a calibration, no edge is latched while disarmed (60_exceptions.md R263, R265, R268). -/
def Obligations.ControlInvariantKept : Prop :=
  ∀ s t : State, ControlInv s → step s = .next t → ControlInv t

/-- Every step keeps the shape of the frame assembly (10_state.md R35 to R38; 43_receiver.md R182, R202). The clauses
`offset_timer` and `hold_timer`, `rxTimer` from 1 to the length of the delay, are the model's choice (log 9). -/
def Obligations.ReceiverInvariantKept : Prop :=
  ∀ s t : State, ControlInv s → ReceiverInv s → step s = .next t → ReceiverInv t

/-- Every step keeps the shape of the sequencer's position: in particular the line is driven only inside a pulse
(10_state.md R28; 42_transmitter.md R162; 60_exceptions.md R262). The clauses `pulse_timer` and `gap_timer`, `mainTimer` from
1 to the length of the delay, are the model's choice (log 9). -/
def Obligations.SequencerInvariantKept : Prop :=
  ∀ s t : State, ControlInv s → SequencerInv s → step s = .next t → SequencerInv t

/-- Every step keeps the rule that a calibrated core holds one of the two parameter sets whole, by the 54 Hz boundary
(10_state.md R34; 41_timing_profile.md R136). -/
def Obligations.ProfileInvariantKept : Prop :=
  ∀ s t : State, ProfileInv s → step s = .next t → ProfileInv t

/-- Every step keeps what the results and flags say of each other (10_state.md R24 to R26; 43_receiver.md R194). -/
def Obligations.ResultInvariantKept : Prop :=
  ∀ s t : State, ReceiverInv s → ResultInv s → step s = .next t → ResultInv t

/-! ### The host's operations -/

/-- The six reads complete and change nothing but the response port (43_receiver.md R195, R196, R198 to R201). -/
def Obligations.ReadsReturnTheRegister : Prop :=
  ∀ s : State,
    exec .isCommandReady s = .next { s with rspHit := true, rspData := if s.commandReady then 1 else 0 } ∧
    exec .isFrameReady s = .next { s with rspHit := true, rspData := if s.frameReadyFlag then 1 else 0 } ∧
    exec .getHouse s = .next { s with rspHit := true, rspData := s.rxHouse.setWidth 32 } ∧
    exec .getUnit s = .next { s with rspHit := true, rspData := s.rxUnit.setWidth 32 } ∧
    exec .getCommand s = .next { s with rspHit := true, rspData := s.rxCommand.setWidth 32 } ∧
    exec .getStart s = .next { s with rspHit := true, rspData := s.rxStart.setWidth 32 }

/-- CLEAR_COMMAND_READY is op code 0x4, clears both flags, answers 0, and changes nothing else (43_receiver.md R197). -/
def Obligations.ClearCommandReadyClearsBothFlags : Prop :=
  (∀ w : CommandWord, w.extractLsb' 17 4 = 0x4 → decodeCommand w = .ok .clearCommandReady) ∧
  ∀ s : State, exec .clearCommandReady s =
    .next { s with rspHit := true, rspData := 0, commandReady := false, frameReadyFlag := false }

/-- DUMP_TIMING returns the selected field and changes nothing else; the selects 5, 6 and 7 are refused
(41_timing_profile.md R138). -/
def Obligations.DumpTimingReturnsTheField : Prop :=
  ∀ s : State,
    exec (.dumpTiming 0) s = .next { s with rspHit := true, rspData := s.profile.mainsFrequencyHz } ∧
    exec (.dumpTiming 1) s = .next { s with rspHit := true, rspData := s.profile.bitLengthUs.setWidth 32 } ∧
    exec (.dumpTiming 2) s = .next { s with rspHit := true, rspData := s.profile.bitDelayUs.setWidth 32 } ∧
    exec (.dumpTiming 3) s = .next { s with rspHit := true, rspData := s.profile.offsetDelayUs.setWidth 32 } ∧
    exec (.dumpTiming 4) s = .next { s with rspHit := true, rspData := s.profile.halfCycleDelayUs.setWidth 32 } ∧
    ∀ select : BitVec 3, 5 ≤ select.toNat → exec (.dumpTiming select) s = .refused (.reservedFieldSelect select)

/-- HOUSE_TO_PATTERN (40_code_tables.md R116): op code 0x9, always a hit, the table of R111, no state written. -/
def Obligations.HouseToPatternLooksUp : Prop :=
  (∀ w : CommandWord, w.extractLsb' 17 4 = 0x9 → decodeCommand w = .ok (.houseToPattern (w.extractLsb' 13 4))) ∧
  ∀ (house : HouseCode) (s : State), exec (.houseToPattern house) s =
    .next { s with rspHit := true, rspData := (housePatternOf house).setWidth 32 }

/-- PATTERN_TO_HOUSE (40_code_tables.md R117): op code 0xA, always a hit, the table of R112, no state written. -/
def Obligations.PatternToHouseLooksUp : Prop :=
  (∀ w : CommandWord, w.extractLsb' 17 4 = 0xA → decodeCommand w = .ok (.patternToHouse (w.extractLsb' 13 4))) ∧
  ∀ (pattern : HousePattern) (s : State), exec (.patternToHouse pattern) s =
    .next { s with rspHit := true, rspData := (houseOf pattern).setWidth 32 }

/-- UNIT_TO_PATTERN (40_code_tables.md R118): op code 0xB, a hit for 1 to 16, a miss with value 0 otherwise, no state
written. -/
def Obligations.UnitToPatternLooksUp : Prop :=
  (∀ w : CommandWord, w.extractLsb' 17 4 = 0xB → decodeCommand w = .ok (.unitToPattern (w.extractLsb' 8 5))) ∧
  ∀ (number : BitVec 5) (s : State), exec (.unitToPattern number) s =
    if 1 ≤ number.toNat ∧ number.toNat ≤ 16 then
      .next { s with rspHit := true, rspData := (unitPatternOf number).setWidth 32 }
    else .next { s with rspHit := false, rspData := 0 }

/-- PATTERN_TO_UNIT (40_code_tables.md R119): op code 0xC, a hit exactly for bit 0 = 0, a miss with value 0 otherwise, no
state written. -/
def Obligations.PatternToUnitLooksUp : Prop :=
  (∀ w : CommandWord, w.extractLsb' 17 4 = 0xC → decodeCommand w = .ok (.patternToUnit (w.extractLsb' 8 5))) ∧
  ∀ (pattern : PayloadPattern) (s : State), exec (.patternToUnit pattern) s =
    if pattern.getLsbD 0 = false then
      .next { s with rspHit := true, rspData := (unitOf pattern).setWidth 32 }
    else .next { s with rspHit := false, rspData := 0 }

/-- The properties (a) to (f) of the code tables (40_code_tables.md R120), of the ROM the model reads. -/
def Obligations.CodeTablesAreBijective : Prop :=
  (∀ house : HouseCode, patternToHouse (houseToPattern house) = house) ∧
  (∀ unit : BitVec 5, 1 ≤ unit.toNat → unit.toNat ≤ 16 →
    ∃ pattern, romRead .u2p unit = some pattern ∧ romRead .p2u pattern = some unit) ∧
  (Function.Bijective houseToPattern ∧ houseToPattern 0 = 6) ∧
  (∀ pattern : PayloadPattern,
    pattern.getLsbD 0 = false ↔
      ∃ unit : BitVec 5, 1 ≤ unit.toNat ∧ unit.toNat ≤ 16 ∧ romRead .u2p unit = some pattern ∧
        ∀ other : BitVec 5, romRead .u2p other = some pattern → other = unit) ∧
  (houseToPattern 0 = 0b0110 ∧ ∀ start house, decodeFrame (frameOf start house 0b00101) = .fOn start house) ∧
  (dimPattern.getLsbD 0 = true ∧ brightPattern.getLsbD 0 = true ∧ dimPattern ≠ brightPattern ∧
    dimPattern ≠ 0b00101 ∧ brightPattern ≠ 0b00101)

/-- CALIBRATE at its acceptance: the receiver is disarmed, a latched edge forgotten, the first edge awaited, nothing else
changed (41_timing_profile.md R133). -/
def Obligations.CalibrateDisarmsAndWaits : Prop :=
  ∀ s : State, exec .calibrate s =
    .next { s with
      rspHit := true
      rspData := 0
      rxArmed := false
      zcPending := false
      mainState := .calSync }

/-- TRANSMIT at its acceptance, after a calibration (42_transmitter.md R150, R157, R159): the latches take the operands, the
receiver is disarmed, a latched edge forgotten, and the first slot is awaited, or with no repetition the guard, or for DIM
and BRIGHT nothing. -/
def Obligations.TransmitLatchesAndWaits : Prop :=
  ∀ (house : HouseCode) (payload : PayloadPattern) (reps : BitVec 8) (s : State), s.calibrated = true →
    let latched :=
      { s with
        rspHit := true
        rspData := 0
        rxArmed := false
        zcPending := false
        txHousePat := housePatternOf house
        txPayload := payload
        txRepeat := reps }
    exec (.transmit house payload reps) s =
      if reps ≠ 0 then
        .next { latched with mainState := .txWait, txField := .start, txBit := 3, txHalf := .plain }
      else if payload = 0b01001 ∨ payload = 0b01011 then
        .next { latched with rxArmed := true, mainState := .idle }
      else .next { latched with mainState := .guard, edgeCount := 6 }

/-- A TRANSMIT accepted while `calibrated = 0` is refused (42_transmitter.md R151). -/
def Obligations.TransmitBeforeCalibrateIsRefused : Prop :=
  (∀ (house : HouseCode) (payload : PayloadPattern) (reps : BitVec 8) (s : State), s.calibrated = false →
    exec (.transmit house payload reps) s = .refused .transmitUncalibrated) ∧
  ∀ s : State, acceptsNow s → presentedCode s = 0x2 → s.calibrated = false → step s = .refused .transmitUncalibrated

/-! ### The frame words -/

/-- The 16 unit words received in the baseline: `rxUnit` takes the unit of the payload, `commandReady` is cleared, `rxHouse`
and `rxStart` are written, and with `frameReadyFlag`, `bitCount` and the handler's return nothing else
(44_frame_words.md R220 to R250, the even ones, R254; 43_receiver.md R191 to R193). -/
def Obligations.UnitWordsWriteTheUnit : Prop :=
  ∀ (start : BitVec 4) (house : HousePattern) (s : State), s.params.strictValidation = false →
    exec (.fUnit13 start house) s = .next (unitReceived 13 start house s) ∧
    exec (.fUnit5 start house) s = .next (unitReceived 5 start house s) ∧
    exec (.fUnit3 start house) s = .next (unitReceived 3 start house s) ∧
    exec (.fUnit11 start house) s = .next (unitReceived 11 start house s) ∧
    exec (.fUnit15 start house) s = .next (unitReceived 15 start house s) ∧
    exec (.fUnit7 start house) s = .next (unitReceived 7 start house s) ∧
    exec (.fUnit1 start house) s = .next (unitReceived 1 start house s) ∧
    exec (.fUnit9 start house) s = .next (unitReceived 9 start house s) ∧
    exec (.fUnit14 start house) s = .next (unitReceived 14 start house s) ∧
    exec (.fUnit6 start house) s = .next (unitReceived 6 start house s) ∧
    exec (.fUnit4 start house) s = .next (unitReceived 4 start house s) ∧
    exec (.fUnit12 start house) s = .next (unitReceived 12 start house s) ∧
    exec (.fUnit16 start house) s = .next (unitReceived 16 start house s) ∧
    exec (.fUnit8 start house) s = .next (unitReceived 8 start house s) ∧
    exec (.fUnit2 start house) s = .next (unitReceived 2 start house s) ∧
    exec (.fUnit10 start house) s = .next (unitReceived 10 start house s)

/-- The 16 command words received in the baseline: `rxCommand` takes the raw pattern, `commandReady` is set, `rxUnit` stays
(44_frame_words.md R221 to R251, the odd ones, R254; 43_receiver.md R190, R192, R193). -/
def Obligations.CommandWordsWriteTheCommand : Prop :=
  ∀ (start : BitVec 4) (house : HousePattern) (s : State), s.params.strictValidation = false →
    exec (.fAllUnitsOff start house) s = .next (commandReceived 0b00001 start house s) ∧
    exec (.fAllLightsOn start house) s = .next (commandReceived 0b00011 start house s) ∧
    exec (.fOn start house) s = .next (commandReceived 0b00101 start house s) ∧
    exec (.fOff start house) s = .next (commandReceived 0b00111 start house s) ∧
    exec (.fDim start house) s = .next (commandReceived 0b01001 start house s) ∧
    exec (.fBright start house) s = .next (commandReceived 0b01011 start house s) ∧
    exec (.fAllLightsOff start house) s = .next (commandReceived 0b01101 start house s) ∧
    exec (.fExtendedCode start house) s = .next (commandReceived 0b01111 start house s) ∧
    exec (.fHailRequest start house) s = .next (commandReceived 0b10001 start house s) ∧
    exec (.fHailAcknowledge start house) s = .next (commandReceived 0b10011 start house s) ∧
    exec (.fPresetDim start house) s = .next (commandReceived 0b10101 start house s) ∧
    exec (.fCmd17 start house) s = .next (commandReceived 0b10111 start house s) ∧
    exec (.fExtendedData start house) s = .next (commandReceived 0b11001 start house s) ∧
    exec (.fStatusOn start house) s = .next (commandReceived 0b11011 start house s) ∧
    exec (.fStatusOff start house) s = .next (commandReceived 0b11101 start house s) ∧
    exec (.fStatusRequest start house) s = .next (commandReceived 0b11111 start house s)

/-- The 16 unit words under strict validation: a start nibble other than 1110 discards the frame
(43_receiver.md R194). -/
def Obligations.StrictUnitWordsOpenThePair : Prop :=
  ∀ (start : BitVec 4) (house : HousePattern) (s : State), s.params.strictValidation = true →
    exec (.fUnit13 start house) s = .next (strictUnitReceived 13 start house s) ∧
    exec (.fUnit5 start house) s = .next (strictUnitReceived 5 start house s) ∧
    exec (.fUnit3 start house) s = .next (strictUnitReceived 3 start house s) ∧
    exec (.fUnit11 start house) s = .next (strictUnitReceived 11 start house s) ∧
    exec (.fUnit15 start house) s = .next (strictUnitReceived 15 start house s) ∧
    exec (.fUnit7 start house) s = .next (strictUnitReceived 7 start house s) ∧
    exec (.fUnit1 start house) s = .next (strictUnitReceived 1 start house s) ∧
    exec (.fUnit9 start house) s = .next (strictUnitReceived 9 start house s) ∧
    exec (.fUnit14 start house) s = .next (strictUnitReceived 14 start house s) ∧
    exec (.fUnit6 start house) s = .next (strictUnitReceived 6 start house s) ∧
    exec (.fUnit4 start house) s = .next (strictUnitReceived 4 start house s) ∧
    exec (.fUnit12 start house) s = .next (strictUnitReceived 12 start house s) ∧
    exec (.fUnit16 start house) s = .next (strictUnitReceived 16 start house s) ∧
    exec (.fUnit8 start house) s = .next (strictUnitReceived 8 start house s) ∧
    exec (.fUnit2 start house) s = .next (strictUnitReceived 2 start house s) ∧
    exec (.fUnit10 start house) s = .next (strictUnitReceived 10 start house s)

/-- The 16 command words under strict validation: ready only after a good unit word of the same house, else the pair is
discarded (43_receiver.md R194). -/
def Obligations.StrictCommandWordsNeedThePair : Prop :=
  ∀ (start : BitVec 4) (house : HousePattern) (s : State), s.params.strictValidation = true →
    exec (.fAllUnitsOff start house) s = .next (strictCommandReceived 0b00001 start house s) ∧
    exec (.fAllLightsOn start house) s = .next (strictCommandReceived 0b00011 start house s) ∧
    exec (.fOn start house) s = .next (strictCommandReceived 0b00101 start house s) ∧
    exec (.fOff start house) s = .next (strictCommandReceived 0b00111 start house s) ∧
    exec (.fDim start house) s = .next (strictCommandReceived 0b01001 start house s) ∧
    exec (.fBright start house) s = .next (strictCommandReceived 0b01011 start house s) ∧
    exec (.fAllLightsOff start house) s = .next (strictCommandReceived 0b01101 start house s) ∧
    exec (.fExtendedCode start house) s = .next (strictCommandReceived 0b01111 start house s) ∧
    exec (.fHailRequest start house) s = .next (strictCommandReceived 0b10001 start house s) ∧
    exec (.fHailAcknowledge start house) s = .next (strictCommandReceived 0b10011 start house s) ∧
    exec (.fPresetDim start house) s = .next (strictCommandReceived 0b10101 start house s) ∧
    exec (.fCmd17 start house) s = .next (strictCommandReceived 0b10111 start house s) ∧
    exec (.fExtendedData start house) s = .next (strictCommandReceived 0b11001 start house s) ∧
    exec (.fStatusOn start house) s = .next (strictCommandReceived 0b11011 start house s) ∧
    exec (.fStatusOff start house) s = .next (strictCommandReceived 0b11101 start house s) ∧
    exec (.fStatusRequest start house) s = .next (strictCommandReceived 0b11111 start house s)

/-- What any 13-bit frame does follows from its bits: bit 0 says the kind, bits 12:9, 8:5 and 4:0 are start, house and
payload (30_encoding.md R81, R83; 43_receiver.md R189, R194). -/
def Obligations.FrameMeaningFollowsTheBits : Prop :=
  ∀ (f : Frame) (s : State),
    let start := f.extractLsb' 9 4
    let house := f.extractLsb' 5 4
    let payload := f.extractLsb' 0 5
    exec (decodeFrame f) s =
      match s.params.strictValidation, f.getLsbD 0 with
      | false, false => .next (unitReceived (unitOf payload) start house s)
      | false, true => .next (commandReceived payload start house s)
      | true, false => .next (strictUnitReceived (unitOf payload) start house s)
      | true, true => .next (strictCommandReceived payload start house s)

/-! ### Calibration -/

/-- The edge that ends the measurement computes the quotient of the elapsed ticks, this tick among them, and takes one
parameter set whole: `P50` exactly when `54 * e > 10^8`, that is from 1851852 on, `P60` up to 1851851 and for a quotient
of 54; the measurement is over (41_timing_profile.md R135, R136). -/
def Obligations.LastCalibrationEdgeSelectsTheSet : Prop :=
  ∀ s : State, ControlInv s → (currentInputs s).rst = false → s.mainState = .calCount → s.edgeCount = 1 → edgeAt s →
    let e := min (s.calElapsed.toNat + 1) (2 ^ 32 - 1)
    ∃ t, step s = .next t ∧
      t.mainState = .idle ∧ t.calibrated = true ∧ t.rxArmed = true ∧ t.calElapsed.toNat = e ∧
      t.profile.mainsFrequencyHz.toNat = 100000000 / e ∧
      (54 * e > 100000000 ↔ 1851852 ≤ e) ∧
      (1851852 ≤ e → hasSet t.profile s.params.p50) ∧
      (e ≤ 1851851 → hasSet t.profile s.params.p60) ∧
      (t.profile.mainsFrequencyHz.toNat = 54 → hasSet t.profile s.params.p60)

/-- From the tick after a CALIBRATE was accepted to its end: the first edge is `j` ticks on, the 200th after it `k` ticks
further. Until then the core is busy; at the end it measured `k` ticks, saturating, holds the set they select, is armed
and idle, and has touched nothing of the receiver (41_timing_profile.md R133, R135 to R137). -/
def Obligations.CalibrationMeasuresTheElapsedTicks : Prop :=
  ∀ (s : State) (j k : Nat), ControlInv s → s.mainState = .calSync → 1 ≤ j → 1 ≤ k → noReset (j + k) s →
    edgesIn s.zcPrev (s.inputs.take (j - 1)) = 0 → edgesIn s.zcPrev (s.inputs.take j) = 1 →
    edgesIn s.zcPrev (s.inputs.take (j + k - 1)) = 200 → edgesIn s.zcPrev (s.inputs.take (j + k)) = 201 →
    let e := min k (2 ^ 32 - 1)
    (∀ m u, m < j + k → run m s = .next u → u.mainState = .calSync ∨ u.mainState = .calCount) ∧
    ∃ t, run (j + k) s = .next t ∧
      t.mainState = .idle ∧ t.calibrated = true ∧ t.rxArmed = true ∧ t.txReg = s.txReg ∧
      t.profile.mainsFrequencyHz.toNat = 100000000 / e ∧
      (1851852 ≤ e → hasSet t.profile s.params.p50) ∧ (e ≤ 1851851 → hasSet t.profile s.params.p60) ∧
      sameAssembly s t ∧ sameResults s t ∧ sameFlags s t ∧ t.rxPhase = .idle

/-! ### Transmission -/

/-- One slot, from the edge that opens it: with L and D the profile's pulse and gap, the line shows the slot's bit in the
ticks `te + 1 + ph * (L + D)` to `te + L + ph * (L + D)` of the three pulses and is low at every other tick, up to the
tick after the emission's end at `te + 3 * L + 2 * D`, where the sequencer stands at the position after this slot
(42_transmitter.md R155). -/
def Obligations.SlotShowsThreePulses : Prop :=
  ∀ s : State, ControlInv s → s.mainState = .txWait → edgeAt s →
    let len := s.profile.bitLengthUs.toNat
    let gap := s.profile.bitDelayUs.toNat
    let n := 3 * len + 2 * gap
    noReset (n + 1) s →
    (∀ k, k ≤ n → ∃ u, run (k + 1) s = .next u ∧ u.txReg = (sentBit s && inPulse len gap k) ∧
      (k < n → u.mainState = .txPulse ∨ u.mainState = .txGap)) ∧
    ∃ t, run (n + 1) s = .next t ∧
      t.mainState = (advanceSlot s).mainState ∧ t.txField = (advanceSlot s).txField ∧
      t.txBit = (advanceSlot s).txBit ∧ t.txHalf = (advanceSlot s).txHalf ∧
      t.txRepeat = (advanceSlot s).txRepeat ∧ t.edgeCount = (advanceSlot s).edgeCount ∧
      t.rxArmed = (advanceSlot s).rxArmed

/-- The 22 positions of one repetition carry the slots of the frame `1110 ++ house ++ payload` in order, and the 22nd is
followed by the next repetition, the guard or the end (42_transmitter.md R152, R153, R156, R162; 30_encoding.md R85). -/
def Obligations.RepetitionSendsTheSlotsOfTheFrame : Prop :=
  ∀ s : State,
    (List.range 22).map (fun k => sentBit (advanceSlot^[k] (startRepetition s))) =
      slots (frameOf 0b1110 s.txHousePat s.txPayload) ∧
    (∀ k, k < 22 → (advanceSlot^[k] (startRepetition s)).mainState = .txWait ∧
      (advanceSlot^[k] (startRepetition s)).txRepeat = s.txRepeat) ∧
    let finished := { s with
      mainState := .txWait, txField := .payload, txBit := 0, txHalf := .plain, txRepeat := s.txRepeat - 1 }
    advanceSlot^[22] (startRepetition s) =
      if s.txRepeat ≠ 1 then startRepetition finished
      else if s.txPayload = 0b01001 ∨ s.txPayload = 0b01011 then { finished with rxArmed := true, mainState := .idle }
      else { finished with mainState := .guard, edgeCount := 6 }

/-- `TRANSMIT A, UNIT_1, 1` sends the slots 1110 01101001 0110100101 (42_transmitter.md R150, R163). -/
def Obligations.HouseAUnitOneSlots : Prop :=
  ∀ s : State, s.calibrated = true → ∃ t, exec (.transmit 0 0b01100 1) s = .next t ∧
    (List.range 22).map (fun k => sentBit (advanceSlot^[k] t)) =
      [true, true, true, false,
       false, true, true, false, true, false, false, true,
       false, true, true, false, true, false, false, true, false, true]

/-- A TRANSMIT waits for `22 * n + g` edges, g = 0 for DIM and BRIGHT and 6 otherwise, a CALIBRATE for 201
(42_transmitter.md R160; 41_timing_profile.md R133). -/
def Obligations.EdgeWaitsAtAcceptance : Prop :=
  (∀ (house : HouseCode) (payload : PayloadPattern) (reps : BitVec 8) (s : State), s.calibrated = true →
    ∃ t, exec (.transmit house payload reps) s = .next t ∧
      edgeWaitsLeft t = 22 * reps.toNat + if payload = 0b01001 ∨ payload = 0b01011 then 0 else 6) ∧
  ∀ s : State, ∃ t, exec .calibrate s = .next t ∧ edgeWaitsLeft t = 201

/-- Each edge at a wait takes one off the edge waits still to come, and nothing else does
(42_transmitter.md R154, R160; 41_timing_profile.md R133). -/
def Obligations.EdgeWaitsCountDown : Prop :=
  ∀ s t : State, SequencerInv s → s.mainState ≠ .idle → (currentInputs s).rst = false → step s = .next t →
    (waitsForEdge s = true ∧ edgeAt s → edgeWaitsLeft t + 1 = edgeWaitsLeft s) ∧
    (¬ (waitsForEdge s = true ∧ edgeAt s) → edgeWaitsLeft t = edgeWaitsLeft s)

/-- While `zc_in` keeps its level, a sequencer that waits for an edge goes on waiting, for any number of ticks: the receiver
stays disarmed, the line and the position stay, and nothing is received (60_exceptions.md R262; 41_timing_profile.md
R131). -/
def Obligations.WaitWithoutEdgeNeverEnds : Prop :=
  ∀ (s : State) (k : Nat), ControlInv s → waitsForEdge s = true → noReset k s →
    edgesIn s.zcPrev (s.inputs.take k) = 0 →
    ∃ t, run k s = .next t ∧
      t.mainState = s.mainState ∧ t.txField = s.txField ∧ t.txBit = s.txBit ∧ t.txHalf = s.txHalf ∧
      t.edgeCount = s.edgeCount ∧ t.txRepeat = s.txRepeat ∧ t.txReg = s.txReg ∧ t.rxArmed = false ∧
      t.calibrated = s.calibrated ∧ t.profile = s.profile ∧ opReady t = false ∧
      sameAssembly s t ∧ sameResults s t ∧ sameFlags s t

/-- Where the sequencer ends, the receiver is armed from the next tick on, the line is low, and an edge at the tick of the
last statement neither starts the handler nor is latched (42_transmitter.md R158; 60_exceptions.md R264). -/
def Obligations.SequencerEndRearmsTheReceiver : Prop :=
  ∀ s t : State, ControlInv s → SequencerInv s → (currentInputs s).rst = false → s.mainState ≠ .idle →
    step s = .next t → t.mainState = .idle →
    t.rxArmed = true ∧ t.rxPhase = .idle ∧ t.zcPending = false ∧ t.txReg = false ∧ t.calibrated = true ∧
      sameAssembly s t ∧ sameResults s t ∧ sameFlags s t

/-! ### Reception -/

/-- At the start of the handler in `Idle` or at a crossing it samples, with an offset of n ≥ 1 ticks: it is busy from the
next tick on, reads the line at no tick before the n-th, and reads it at the n-th (43_receiver.md R183, R184, R186). -/
def Obligations.SampleComesAtTheOffset : Prop :=
  ∀ s : State, ControlInv s → startsNow s → samplesCrossing s → (currentInputs s).opValid = false →
    let n := s.profile.offsetDelayUs.toNat
    1 ≤ n → noReset n s →
    ¬ readsLine s ∧
    ∀ k, 1 ≤ k → k ≤ n → ∃ u, run k s = .next u ∧ u.rxPhase = .offset ∧ opReady u = false ∧
      (readsLine u ↔ k = n) ∧ u.bitCount = s.bitCount ∧ u.bitMask = s.bitMask ∧
      u.accumulatorBuffer = s.accumulatorBuffer ∧ sameResults s u ∧ sameFlags s u

/-- Start detection: in `Idle` a high line leaves everything as it was, a low line starts a frame with bit 12 set, and
neither touches a flag or a result register; only a CLEAR_COMMAND_READY accepted at the same tick clears flags
(43_receiver.md R183, R185). -/
def Obligations.LowSampleInIdleStartsAFrame : Prop :=
  ∀ s t : State, ControlInv s → (currentInputs s).rst = false → s.bitCount = 0 → readsLine s → step s = .next t →
    t.rxPhase = .idle ∧ sameResults s t ∧ (¬ clearsNow s → sameFlags s t) ∧
    ((currentInputs s).rxIn = true → sameAssembly s t) ∧
    ((currentInputs s).rxIn = false →
      t.accumulatorBuffer = 0x1000 ∧ t.bitMask = 0x0800 ∧ t.bitCount = 1 ∧ t.zeroCrossCount = 1)

/-- Every edge taken in `Accumulating` counts, and the incremented count says whether it is sampled; one that is not
sampled ends the handler with only the count changed, one that is loads the offset delay (43_receiver.md R184, R186). That
`rxTimer` then holds the whole length of the delay is the model's choice (log 9). -/
def Obligations.CrossingsAreCountedAndSampled : Prop :=
  ∀ s t : State, ControlInv s → (currentInputs s).rst = false → startsNow s →
    1 ≤ s.bitCount.toNat → s.bitCount.toNat ≤ 12 → step s = .next t →
    t.zeroCrossCount = s.zeroCrossCount + 1 ∧
    (s.bitCount.toNat < 5 ∨ (s.zeroCrossCount + 1).getLsbD 0 = true → s.profile.offsetDelayUs ≠ 0 →
      t.rxPhase = .offset ∧ t.rxTimer.toNat = s.profile.offsetDelayUs.toNat ∧ t.bitCount = s.bitCount ∧
      t.bitMask = s.bitMask ∧ t.accumulatorBuffer = s.accumulatorBuffer ∧ sameResults s t) ∧
    (s.bitCount.toNat < 5 ∨ (s.zeroCrossCount + 1).getLsbD 0 = true → s.profile.offsetDelayUs = 0 → readsLine s) ∧
    (¬ (s.bitCount.toNat < 5 ∨ (s.zeroCrossCount + 1).getLsbD 0 = true) →
      t.rxPhase = .idle ∧ t.bitCount = s.bitCount ∧ t.bitMask = s.bitMask ∧
      t.accumulatorBuffer = s.accumulatorBuffer ∧ sameResults s t ∧ (¬ clearsNow s → sameFlags s t))

/-- A sample in `Accumulating` writes the complement of the line into the bit below those stored, so the k-th stored bit lands
in bit 13 - k; the mask moves on, and the count goes up by one, or, where it would be 13 with no hold to wait out, the
frame is complete (43_receiver.md R187). -/
def Obligations.SampleStoresTheBit : Prop :=
  ∀ s t : State, ControlInv s → ReceiverInv s → (currentInputs s).rst = false →
    1 ≤ s.bitCount.toNat → s.bitCount.toNat ≤ 12 → readsLine s → step s = .next t →
    (∀ b, b < 13 → t.accumulatorBuffer.getLsbD b =
      if b + s.bitCount.toNat = 12 then !(currentInputs s).rxIn else s.accumulatorBuffer.getLsbD b) ∧
    t.bitMask = s.bitMask >>> 1 ∧
    (s.bitCount ≠ 12 → t.bitCount = s.bitCount + 1 ∧ t.rxPhase = .idle ∧ sameResults s t) ∧
    (s.bitCount = 12 → s.profile.halfCycleDelayUs ≠ 0 → t.bitCount = 13 ∧ t.rxPhase = .hold ∧ sameResults s t) ∧
    (s.bitCount = 12 → s.profile.halfCycleDelayUs = 0 → t.bitCount = 0 ∧ t.rxPhase = .idle ∧ t.frameReadyFlag = true)

/-- The 13th sample at a tick starts a hold of 5 half-cycle delays: for those ticks the handler runs, the host is shut out
and no edge is counted, and in the tick it ends, `frameReadyFlag` is set, `bitCount` is 0 and the frame word acts; with a
delay of 0 that is the tick of the sample (43_receiver.md R188). The accumulator keeps the frame the 13th sample left in
it: what it held, with the mask or-ed in where the line was low. That frame is the one that acts. -/
def Obligations.FrameEndsAfterFiveHalfCycles : Prop :=
  ∀ s : State, ControlInv s → s.bitCount = 12 → readsLine s → (currentInputs s).opValid = false →
    let n := 5 * s.profile.halfCycleDelayUs.toNat
    let f := if (currentInputs s).rxIn then s.accumulatorBuffer else s.accumulatorBuffer ||| s.bitMask
    noReset (n + 1) s →
    ∃ count : BitVec 5, (startsNow s → count = s.zeroCrossCount + 1) ∧ (¬ startsNow s → count = s.zeroCrossCount) ∧
      (∀ k, 1 ≤ k → k ≤ n → ∃ u, run k s = .next u ∧ u.rxPhase = .hold ∧ u.bitCount = 13 ∧ opReady u = false ∧
        u.accumulatorBuffer = f ∧ u.bitMask = s.bitMask >>> 1 ∧ u.zeroCrossCount = count ∧ sameResults s u ∧
        sameFlags s u) ∧
      ∃ t parsed, run (n + 1) s = .next t ∧ exec (decodeFrame f) s = .next parsed ∧
        t.accumulatorBuffer = f ∧ t.bitMask = s.bitMask >>> 1 ∧
        t.frameReadyFlag = true ∧ t.bitCount = 0 ∧ t.rxPhase = .idle ∧ t.zeroCrossCount = count ∧
        t.commandReady = parsed.commandReady ∧ sameResults parsed t

/-- A frame with its first bit 1, shown edge by edge to an armed receiver in `Idle`, is in the accumulator after the sample of
its 21st slot, whatever the line shows in the complement slots and between the samples; the frame is complete after 21
edges (43_receiver.md R202; 30_encoding.md R88). The first edge is no latched one and no word is presented meanwhile. That
`rxTimer` holds the whole length of the hold at its start is the model's choice (log 9). -/
def Obligations.ReceiverAssemblesTheFrame : Prop :=
  ∀ (s : State) (f : Frame) (windows : List (List Inputs)) (last : List Inputs) (rest : List Inputs),
    ControlInv s → s.rxArmed = true → s.rxPhase = .idle → s.zcPending = false → s.bitCount = 0 →
    f.getLsbD 12 = true → showsFrame f s.profile.offsetDelayUs.toNat s.zcPrev windows →
    windows[20]? = some last → last.length = s.profile.offsetDelayUs.toNat + 1 → s.inputs = windows.flatten ++ rest →
    ∃ t, run windows.flatten.length s = .next t ∧
      t.accumulatorBuffer = f ∧ t.zeroCrossCount = 21 ∧ t.bitMask = 0 ∧
      (s.profile.halfCycleDelayUs ≠ 0 →
        t.bitCount = 13 ∧ t.rxPhase = .hold ∧ t.rxTimer.toNat = 5 * s.profile.halfCycleDelayUs.toNat) ∧
      (s.profile.halfCycleDelayUs = 0 → t.bitCount = 0 ∧ t.rxPhase = .idle ∧ t.frameReadyFlag = true)

/-- The pending latch after any tick without reset: the first case that applies (60_exceptions.md R265; with the latch
absent it is 0). -/
def Obligations.PendingLatchFollowsItsCases : Prop :=
  ∀ s t : State, (currentInputs s).rst = false → step s = .next t →
    (s.params.zcPendingLatch = false → t.zcPending = false) ∧
    (s.params.zcPendingLatch = true →
      (blockingNow s → t.zcPending = false) ∧
      (¬ blockingNow s → startsNow s → t.zcPending = false) ∧
      (¬ blockingNow s → ¬ startsNow s → s.rxArmed = true ∧ edgeAt s ∧ s.rxPhase ≠ .idle → t.zcPending = true) ∧
      (¬ blockingNow s → ¬ startsNow s → ¬ (s.rxArmed = true ∧ edgeAt s ∧ s.rxPhase ≠ .idle) →
        t.zcPending = s.zcPending))

/-- While disarmed, edges start nothing, are not latched and are not counted, and arming or disarming does not touch the frame
under assembly or the results (60_exceptions.md R266; 70_reset_and_hazards.md R296). -/
def Obligations.DisarmedReceiverTakesNoEdge : Prop :=
  ∀ s t : State, ControlInv s → s.rxArmed = false → (currentInputs s).rst = false → step s = .next t →
    t.rxPhase = .idle ∧ t.zcPending = false ∧ sameAssembly s t ∧ sameResults s t ∧ (¬ clearsNow s → sameFlags s t)

/-- A blocking operation accepted at a tick with an edge wins: the handler does not start, nothing is latched, the receiver
keeps what it had, and the sequencer's first wait does not take that edge (60_exceptions.md R264). -/
def Obligations.BlockingOperationWinsOverTheEdge : Prop :=
  ∀ s t : State, blockingNow s → step s = .next t →
    t.rxPhase = .idle ∧ t.zcPending = false ∧ sameAssembly s t ∧ sameResults s t ∧ sameFlags s t ∧
    (presentedCode s = 0x1 → t.mainState = .calSync ∧ t.rxArmed = false) ∧
    (presentedCode s = 0x2 →
      edgeWaitsLeft t =
        22 * ((currentInputs s).opWord.extractLsb' 0 8).toNat + guardWaits ((currentInputs s).opWord.extractLsb' 8 5))

/-! ### What may change what -/

/-- Without a reset, only the last edge of a CALIBRATE writes the profile or sets `calibrated`, and nothing clears
`calibrated` (10_state.md R32, R34, R45). -/
def Obligations.OnlyCalibrationWritesTheProfile : Prop :=
  ∀ s t : State, (currentInputs s).rst = false → step s = .next t →
    (t.profile ≠ s.profile ∨ t.calibrated ≠ s.calibrated →
      s.mainState = .calCount ∧ s.edgeCount = 1 ∧ edgeAt s ∧ t.calibrated = true)

/-- Without a reset, the result registers change only at a tick that ends a frame: the end of a hold, or the 13th sample with
no hold to wait out (10_state.md R23 to R26, R39, R45). That a hold ends at the tick that finds `rxTimer` at 1, or at 0, is the
model's choice (log 9). -/
def Obligations.ResultsChangeOnlyAtTheEndOfAFrame : Prop :=
  ∀ s t : State, ControlInv s → (currentInputs s).rst = false → step s = .next t →
    ¬ sameResults s t →
    ((s.rxPhase = .hold ∧ s.rxTimer.toNat ≤ 1) ∨
      (s.bitCount = 12 ∧ readsLine s ∧ s.profile.halfCycleDelayUs = 0)) ∧
    t.frameReadyFlag = true ∧ t.bitCount = 0

/-- Without a reset, `frameReadyFlag` falls only at a CLEAR_COMMAND_READY, and `commandReady` only there or where a frame ends;
both rise only where a frame ends (10_state.md R30, R31). That a hold ends at the tick that finds `rxTimer` at 1, or at 0, is
the model's choice (log 9). -/
def Obligations.FlagsAreLevelTriggered : Prop :=
  ∀ s t : State, ControlInv s → (currentInputs s).rst = false → step s = .next t →
    let ends := (s.rxPhase = .hold ∧ s.rxTimer.toNat ≤ 1) ∨
      (s.bitCount = 12 ∧ readsLine s ∧ s.profile.halfCycleDelayUs = 0)
    (s.frameReadyFlag = true → t.frameReadyFlag = false → clearsNow s) ∧
    (s.commandReady = true → t.commandReady = false → clearsNow s ∨ ends) ∧
    (s.frameReadyFlag = false → t.frameReadyFlag = true → ends) ∧
    (s.commandReady = false → t.commandReady = true → ends)

/-- Only the main sequencer writes `rxArmed`: it falls only at a blocking operation's acceptance, and rises only where the
sequencer ends (10_state.md R33); and the sequencer starts only at a blocking operation's acceptance, armed or not
(30_encoding.md R92). -/
def Obligations.OnlyBlockingOperationsArmAndDisarm : Prop :=
  ∀ s t : State, ControlInv s → (currentInputs s).rst = false → step s = .next t →
    (s.rxArmed = true → t.rxArmed = false → blockingNow s) ∧
    (s.rxArmed = false → t.rxArmed = true → (s.mainState ≠ .idle ∨ blockingNow s) ∧ t.mainState = .idle) ∧
    (s.mainState = .idle → ¬ blockingNow s → t.mainState = .idle)

/-- The transmit line changes only inside a slot, at the edge that opens it or in its delays, and the operand latches only at
a TRANSMIT's acceptance, but for the count of repetitions, which goes down by one where a slot ends
(10_state.md R22, R43; 42_transmitter.md R154). -/
def Obligations.LineAndLatchesBelongToTransmit : Prop :=
  ∀ s t : State, (currentInputs s).rst = false → step s = .next t →
    (t.txReg ≠ s.txReg → s.mainState = .txPulse ∨ s.mainState = .txGap ∨ (s.mainState = .txWait ∧ edgeAt s)) ∧
    (t.txHousePat ≠ s.txHousePat ∨ t.txPayload ≠ s.txPayload → blockingNow s ∧ presentedCode s = 0x2) ∧
    (t.txRepeat ≠ s.txRepeat →
      (blockingNow s ∧ presentedCode s = 0x2) ∨ (sending s = true ∧ t.txRepeat = s.txRepeat - 1))
end

