-- ==== Sys2Proof/Laws/Decode.lean ====
section
/-! SUPPORT. The fields of a composed command word and of a composed frame, and the frame word of a payload pattern. -/

namespace Sys2Proof

section

variable (code house : BitVec 4) (payload : BitVec 5) (reps : BitVec 8)

@[simp] theorem opCode_commandWord : opCode (commandWord code house payload reps) = code := by
  ext i hi
  interval_cases i <;> simp [opCode, commandWord, BitVec.getLsbD_of_ge]

@[simp] theorem opHouse_commandWord : opHouse (commandWord code house payload reps) = house := by
  ext i hi
  interval_cases i <;> simp [opHouse, commandWord, BitVec.getLsbD_of_ge]

@[simp] theorem opPayload_commandWord : opPayload (commandWord code house payload reps) = payload := by
  ext i hi
  interval_cases i <;> simp [opPayload, commandWord, BitVec.getLsbD_of_ge]

@[simp] theorem opSelect_commandWord (select : BitVec 3) :
    opSelect (commandWord code house (select.setWidth 5) reps) = select := by
  ext i hi
  interval_cases i <;> simp [opSelect, commandWord, BitVec.getLsbD_of_ge]

@[simp] theorem opRepeat_commandWord : opRepeat (commandWord code house payload reps) = reps := by
  ext i hi
  interval_cases i <;> simp [opRepeat, commandWord]

@[simp] theorem frameStart_frameOf : frameStart (frameOf code house payload) = code := by
  ext i hi
  interval_cases i <;> simp [frameOf, frameStart, BitVec.getLsbD_of_ge]

@[simp] theorem frameHouse_frameOf : frameHouse (frameOf code house payload) = house := by
  ext i hi
  interval_cases i <;> simp [frameOf, frameHouse, BitVec.getLsbD_of_ge]

@[simp] theorem framePayload_frameOf : framePayload (frameOf code house payload) = payload := by
  ext i hi
  interval_cases i <;> simp [frameOf, framePayload]

end

/-- A frame is its three fields. -/
theorem frameOf_fields (f : Frame) : frameOf (frameStart f) (frameHouse f) (framePayload f) = f := by
  ext i hi
  interval_cases i <;> simp [frameOf, frameStart, frameHouse, framePayload]

/-- A 5-bit pattern is one of 32. -/
theorem payload_cases (P : PayloadPattern → Prop) (h : ∀ k : Fin 32, P (BitVec.ofFin k)) (p : PayloadPattern) : P p :=
  h p.toFin

/-- The frame word of a payload pattern is encoded with that pattern. -/
theorem encode_frameInstr (start : BitVec 4) (house : HousePattern) (payload : PayloadPattern) :
    encode (frameInstr start house payload) = .frame (frameOf start house payload) := by
  induction payload using payload_cases with
  | h k => fin_cases k <;> rfl

end Sys2Proof
end

