-- ==== Sys2Proof/Laws/Rom.lean ====
section
/-! SUPPORT. The code-table ROM against the tables as the spec writes them. -/

namespace Sys2Proof.Machine

open Sys2Proof Sys2Proof.Safety

theorem houseToPattern_eq : ∀ house : HouseCode, houseToPattern house = housePatternOf house := by decide

theorem patternToHouse_eq : ∀ pattern : HousePattern, patternToHouse pattern = houseOf pattern := by decide

/-- Every pattern with bit 0 = 0 is a unit's, no other is (40_code_tables.md R114). -/
theorem romHit_p2u : ∀ pattern : PayloadPattern, romHit .p2u pattern = !pattern.getLsbD 0 := by decide

theorem romValue_p2u : ∀ pattern : PayloadPattern,
    romValue .p2u pattern = if pattern.getLsbD 0 then 0 else unitOf pattern := by decide

/-- The units are 1 to 16 (40_code_tables.md R113). -/
theorem romHit_u2p : ∀ number : BitVec 5, romHit .u2p number = (1#5 ≤ number && number ≤ 16#5) := by decide

theorem romValue_u2p : ∀ number : BitVec 5,
    romValue .u2p number = if 1#5 ≤ number && number ≤ 16#5 then unitPatternOf number else 0 := by decide

theorem romValue_p2u_le : ∀ pattern : PayloadPattern, (romValue .p2u pattern).toNat ≤ 16 := by decide

theorem skipsGuard_eq : ∀ payload : PayloadPattern, skipsGuard payload = (guardWaits payload == 0) := by decide

theorem slotBit_eq_sentBit (s : State) : slotBit s = sentBit s := by
  unfold slotBit sentBit fieldBit startCode
  cases s.txHalf <;> cases s.txField <;> rfl

end Sys2Proof.Machine
end

