-- ==== Sys2Proof/Laws/State.lean ====
section
/-! SUPPORT. Every field after every plain update of the state, by rfl. -/

namespace Sys2Proof.Machine

open Sys2Proof

/-! ### respond -/

@[simp] theorem respond_params (hit : Bool) (data : RspWord) (s : State) : (respond hit data s).params = s.params := rfl
@[simp] theorem respond_tick (hit : Bool) (data : RspWord) (s : State) : (respond hit data s).tick = s.tick := rfl
@[simp] theorem respond_inputs (hit : Bool) (data : RspWord) (s : State) : (respond hit data s).inputs = s.inputs := rfl
@[simp] theorem respond_rspData (hit : Bool) (data : RspWord) (s : State) : (respond hit data s).rspData = data := rfl
@[simp] theorem respond_rspHit (hit : Bool) (data : RspWord) (s : State) : (respond hit data s).rspHit = hit := rfl
@[simp] theorem respond_txHousePat (hit : Bool) (data : RspWord) (s : State) : (respond hit data s).txHousePat = s.txHousePat := rfl
@[simp] theorem respond_txPayload (hit : Bool) (data : RspWord) (s : State) : (respond hit data s).txPayload = s.txPayload := rfl
@[simp] theorem respond_txRepeat (hit : Bool) (data : RspWord) (s : State) : (respond hit data s).txRepeat = s.txRepeat := rfl
@[simp] theorem respond_rxHouse (hit : Bool) (data : RspWord) (s : State) : (respond hit data s).rxHouse = s.rxHouse := rfl
@[simp] theorem respond_rxUnit (hit : Bool) (data : RspWord) (s : State) : (respond hit data s).rxUnit = s.rxUnit := rfl
@[simp] theorem respond_rxCommand (hit : Bool) (data : RspWord) (s : State) : (respond hit data s).rxCommand = s.rxCommand := rfl
@[simp] theorem respond_rxStart (hit : Bool) (data : RspWord) (s : State) : (respond hit data s).rxStart = s.rxStart := rfl
@[simp] theorem respond_mainState (hit : Bool) (data : RspWord) (s : State) : (respond hit data s).mainState = s.mainState := rfl
@[simp] theorem respond_txField (hit : Bool) (data : RspWord) (s : State) : (respond hit data s).txField = s.txField := rfl
@[simp] theorem respond_txBit (hit : Bool) (data : RspWord) (s : State) : (respond hit data s).txBit = s.txBit := rfl
@[simp] theorem respond_txHalf (hit : Bool) (data : RspWord) (s : State) : (respond hit data s).txHalf = s.txHalf := rfl
@[simp] theorem respond_txPhase (hit : Bool) (data : RspWord) (s : State) : (respond hit data s).txPhase = s.txPhase := rfl
@[simp] theorem respond_edgeCount (hit : Bool) (data : RspWord) (s : State) : (respond hit data s).edgeCount = s.edgeCount := rfl
@[simp] theorem respond_mainTimer (hit : Bool) (data : RspWord) (s : State) : (respond hit data s).mainTimer = s.mainTimer := rfl
@[simp] theorem respond_rxPhase (hit : Bool) (data : RspWord) (s : State) : (respond hit data s).rxPhase = s.rxPhase := rfl
@[simp] theorem respond_rxTimer (hit : Bool) (data : RspWord) (s : State) : (respond hit data s).rxTimer = s.rxTimer := rfl
@[simp] theorem respond_frameReadyFlag (hit : Bool) (data : RspWord) (s : State) : (respond hit data s).frameReadyFlag = s.frameReadyFlag := rfl
@[simp] theorem respond_commandReady (hit : Bool) (data : RspWord) (s : State) : (respond hit data s).commandReady = s.commandReady := rfl
@[simp] theorem respond_calibrated (hit : Bool) (data : RspWord) (s : State) : (respond hit data s).calibrated = s.calibrated := rfl
@[simp] theorem respond_rxArmed (hit : Bool) (data : RspWord) (s : State) : (respond hit data s).rxArmed = s.rxArmed := rfl
@[simp] theorem respond_profile (hit : Bool) (data : RspWord) (s : State) : (respond hit data s).profile = s.profile := rfl
@[simp] theorem respond_bitCount (hit : Bool) (data : RspWord) (s : State) : (respond hit data s).bitCount = s.bitCount := rfl
@[simp] theorem respond_zeroCrossCount (hit : Bool) (data : RspWord) (s : State) : (respond hit data s).zeroCrossCount = s.zeroCrossCount := rfl
@[simp] theorem respond_bitMask (hit : Bool) (data : RspWord) (s : State) : (respond hit data s).bitMask = s.bitMask := rfl
@[simp] theorem respond_accumulatorBuffer (hit : Bool) (data : RspWord) (s : State) : (respond hit data s).accumulatorBuffer = s.accumulatorBuffer := rfl
@[simp] theorem respond_unitPending (hit : Bool) (data : RspWord) (s : State) : (respond hit data s).unitPending = s.unitPending := rfl
@[simp] theorem respond_unitHousePat (hit : Bool) (data : RspWord) (s : State) : (respond hit data s).unitHousePat = s.unitHousePat := rfl
@[simp] theorem respond_zcPrev (hit : Bool) (data : RspWord) (s : State) : (respond hit data s).zcPrev = s.zcPrev := rfl
@[simp] theorem respond_zcPending (hit : Bool) (data : RspWord) (s : State) : (respond hit data s).zcPending = s.zcPending := rfl
@[simp] theorem respond_txReg (hit : Bool) (data : RspWord) (s : State) : (respond hit data s).txReg = s.txReg := rfl
@[simp] theorem respond_calElapsed (hit : Bool) (data : RspWord) (s : State) : (respond hit data s).calElapsed = s.calElapsed := rfl

/-! ### disarm -/

@[simp] theorem disarm_params (s : State) : (disarm s).params = s.params := rfl
@[simp] theorem disarm_tick (s : State) : (disarm s).tick = s.tick := rfl
@[simp] theorem disarm_inputs (s : State) : (disarm s).inputs = s.inputs := rfl
@[simp] theorem disarm_rspData (s : State) : (disarm s).rspData = s.rspData := rfl
@[simp] theorem disarm_rspHit (s : State) : (disarm s).rspHit = s.rspHit := rfl
@[simp] theorem disarm_txHousePat (s : State) : (disarm s).txHousePat = s.txHousePat := rfl
@[simp] theorem disarm_txPayload (s : State) : (disarm s).txPayload = s.txPayload := rfl
@[simp] theorem disarm_txRepeat (s : State) : (disarm s).txRepeat = s.txRepeat := rfl
@[simp] theorem disarm_rxHouse (s : State) : (disarm s).rxHouse = s.rxHouse := rfl
@[simp] theorem disarm_rxUnit (s : State) : (disarm s).rxUnit = s.rxUnit := rfl
@[simp] theorem disarm_rxCommand (s : State) : (disarm s).rxCommand = s.rxCommand := rfl
@[simp] theorem disarm_rxStart (s : State) : (disarm s).rxStart = s.rxStart := rfl
@[simp] theorem disarm_mainState (s : State) : (disarm s).mainState = s.mainState := rfl
@[simp] theorem disarm_txField (s : State) : (disarm s).txField = s.txField := rfl
@[simp] theorem disarm_txBit (s : State) : (disarm s).txBit = s.txBit := rfl
@[simp] theorem disarm_txHalf (s : State) : (disarm s).txHalf = s.txHalf := rfl
@[simp] theorem disarm_txPhase (s : State) : (disarm s).txPhase = s.txPhase := rfl
@[simp] theorem disarm_edgeCount (s : State) : (disarm s).edgeCount = s.edgeCount := rfl
@[simp] theorem disarm_mainTimer (s : State) : (disarm s).mainTimer = s.mainTimer := rfl
@[simp] theorem disarm_rxPhase (s : State) : (disarm s).rxPhase = s.rxPhase := rfl
@[simp] theorem disarm_rxTimer (s : State) : (disarm s).rxTimer = s.rxTimer := rfl
@[simp] theorem disarm_frameReadyFlag (s : State) : (disarm s).frameReadyFlag = s.frameReadyFlag := rfl
@[simp] theorem disarm_commandReady (s : State) : (disarm s).commandReady = s.commandReady := rfl
@[simp] theorem disarm_calibrated (s : State) : (disarm s).calibrated = s.calibrated := rfl
@[simp] theorem disarm_rxArmed (s : State) : (disarm s).rxArmed = false := rfl
@[simp] theorem disarm_profile (s : State) : (disarm s).profile = s.profile := rfl
@[simp] theorem disarm_bitCount (s : State) : (disarm s).bitCount = s.bitCount := rfl
@[simp] theorem disarm_zeroCrossCount (s : State) : (disarm s).zeroCrossCount = s.zeroCrossCount := rfl
@[simp] theorem disarm_bitMask (s : State) : (disarm s).bitMask = s.bitMask := rfl
@[simp] theorem disarm_accumulatorBuffer (s : State) : (disarm s).accumulatorBuffer = s.accumulatorBuffer := rfl
@[simp] theorem disarm_unitPending (s : State) : (disarm s).unitPending = s.unitPending := rfl
@[simp] theorem disarm_unitHousePat (s : State) : (disarm s).unitHousePat = s.unitHousePat := rfl
@[simp] theorem disarm_zcPrev (s : State) : (disarm s).zcPrev = s.zcPrev := rfl
@[simp] theorem disarm_zcPending (s : State) : (disarm s).zcPending = false := rfl
@[simp] theorem disarm_txReg (s : State) : (disarm s).txReg = s.txReg := rfl
@[simp] theorem disarm_calElapsed (s : State) : (disarm s).calElapsed = s.calElapsed := rfl

/-! ### rearm -/

@[simp] theorem rearm_params (s : State) : (rearm s).params = s.params := rfl
@[simp] theorem rearm_tick (s : State) : (rearm s).tick = s.tick := rfl
@[simp] theorem rearm_inputs (s : State) : (rearm s).inputs = s.inputs := rfl
@[simp] theorem rearm_rspData (s : State) : (rearm s).rspData = s.rspData := rfl
@[simp] theorem rearm_rspHit (s : State) : (rearm s).rspHit = s.rspHit := rfl
@[simp] theorem rearm_txHousePat (s : State) : (rearm s).txHousePat = s.txHousePat := rfl
@[simp] theorem rearm_txPayload (s : State) : (rearm s).txPayload = s.txPayload := rfl
@[simp] theorem rearm_txRepeat (s : State) : (rearm s).txRepeat = s.txRepeat := rfl
@[simp] theorem rearm_rxHouse (s : State) : (rearm s).rxHouse = s.rxHouse := rfl
@[simp] theorem rearm_rxUnit (s : State) : (rearm s).rxUnit = s.rxUnit := rfl
@[simp] theorem rearm_rxCommand (s : State) : (rearm s).rxCommand = s.rxCommand := rfl
@[simp] theorem rearm_rxStart (s : State) : (rearm s).rxStart = s.rxStart := rfl
@[simp] theorem rearm_mainState (s : State) : (rearm s).mainState = .idle := rfl
@[simp] theorem rearm_txField (s : State) : (rearm s).txField = s.txField := rfl
@[simp] theorem rearm_txBit (s : State) : (rearm s).txBit = s.txBit := rfl
@[simp] theorem rearm_txHalf (s : State) : (rearm s).txHalf = s.txHalf := rfl
@[simp] theorem rearm_txPhase (s : State) : (rearm s).txPhase = s.txPhase := rfl
@[simp] theorem rearm_edgeCount (s : State) : (rearm s).edgeCount = s.edgeCount := rfl
@[simp] theorem rearm_mainTimer (s : State) : (rearm s).mainTimer = s.mainTimer := rfl
@[simp] theorem rearm_rxPhase (s : State) : (rearm s).rxPhase = s.rxPhase := rfl
@[simp] theorem rearm_rxTimer (s : State) : (rearm s).rxTimer = s.rxTimer := rfl
@[simp] theorem rearm_frameReadyFlag (s : State) : (rearm s).frameReadyFlag = s.frameReadyFlag := rfl
@[simp] theorem rearm_commandReady (s : State) : (rearm s).commandReady = s.commandReady := rfl
@[simp] theorem rearm_calibrated (s : State) : (rearm s).calibrated = s.calibrated := rfl
@[simp] theorem rearm_rxArmed (s : State) : (rearm s).rxArmed = true := rfl
@[simp] theorem rearm_profile (s : State) : (rearm s).profile = s.profile := rfl
@[simp] theorem rearm_bitCount (s : State) : (rearm s).bitCount = s.bitCount := rfl
@[simp] theorem rearm_zeroCrossCount (s : State) : (rearm s).zeroCrossCount = s.zeroCrossCount := rfl
@[simp] theorem rearm_bitMask (s : State) : (rearm s).bitMask = s.bitMask := rfl
@[simp] theorem rearm_accumulatorBuffer (s : State) : (rearm s).accumulatorBuffer = s.accumulatorBuffer := rfl
@[simp] theorem rearm_unitPending (s : State) : (rearm s).unitPending = s.unitPending := rfl
@[simp] theorem rearm_unitHousePat (s : State) : (rearm s).unitHousePat = s.unitHousePat := rfl
@[simp] theorem rearm_zcPrev (s : State) : (rearm s).zcPrev = s.zcPrev := rfl
@[simp] theorem rearm_zcPending (s : State) : (rearm s).zcPending = s.zcPending := rfl
@[simp] theorem rearm_txReg (s : State) : (rearm s).txReg = s.txReg := rfl
@[simp] theorem rearm_calElapsed (s : State) : (rearm s).calElapsed = s.calElapsed := rfl

/-! ### clearFlags -/

@[simp] theorem clearFlags_params (s : State) : (clearFlags s).params = s.params := rfl
@[simp] theorem clearFlags_tick (s : State) : (clearFlags s).tick = s.tick := rfl
@[simp] theorem clearFlags_inputs (s : State) : (clearFlags s).inputs = s.inputs := rfl
@[simp] theorem clearFlags_rspData (s : State) : (clearFlags s).rspData = s.rspData := rfl
@[simp] theorem clearFlags_rspHit (s : State) : (clearFlags s).rspHit = s.rspHit := rfl
@[simp] theorem clearFlags_txHousePat (s : State) : (clearFlags s).txHousePat = s.txHousePat := rfl
@[simp] theorem clearFlags_txPayload (s : State) : (clearFlags s).txPayload = s.txPayload := rfl
@[simp] theorem clearFlags_txRepeat (s : State) : (clearFlags s).txRepeat = s.txRepeat := rfl
@[simp] theorem clearFlags_rxHouse (s : State) : (clearFlags s).rxHouse = s.rxHouse := rfl
@[simp] theorem clearFlags_rxUnit (s : State) : (clearFlags s).rxUnit = s.rxUnit := rfl
@[simp] theorem clearFlags_rxCommand (s : State) : (clearFlags s).rxCommand = s.rxCommand := rfl
@[simp] theorem clearFlags_rxStart (s : State) : (clearFlags s).rxStart = s.rxStart := rfl
@[simp] theorem clearFlags_mainState (s : State) : (clearFlags s).mainState = s.mainState := rfl
@[simp] theorem clearFlags_txField (s : State) : (clearFlags s).txField = s.txField := rfl
@[simp] theorem clearFlags_txBit (s : State) : (clearFlags s).txBit = s.txBit := rfl
@[simp] theorem clearFlags_txHalf (s : State) : (clearFlags s).txHalf = s.txHalf := rfl
@[simp] theorem clearFlags_txPhase (s : State) : (clearFlags s).txPhase = s.txPhase := rfl
@[simp] theorem clearFlags_edgeCount (s : State) : (clearFlags s).edgeCount = s.edgeCount := rfl
@[simp] theorem clearFlags_mainTimer (s : State) : (clearFlags s).mainTimer = s.mainTimer := rfl
@[simp] theorem clearFlags_rxPhase (s : State) : (clearFlags s).rxPhase = s.rxPhase := rfl
@[simp] theorem clearFlags_rxTimer (s : State) : (clearFlags s).rxTimer = s.rxTimer := rfl
@[simp] theorem clearFlags_frameReadyFlag (s : State) : (clearFlags s).frameReadyFlag = false := rfl
@[simp] theorem clearFlags_commandReady (s : State) : (clearFlags s).commandReady = false := rfl
@[simp] theorem clearFlags_calibrated (s : State) : (clearFlags s).calibrated = s.calibrated := rfl
@[simp] theorem clearFlags_rxArmed (s : State) : (clearFlags s).rxArmed = s.rxArmed := rfl
@[simp] theorem clearFlags_profile (s : State) : (clearFlags s).profile = s.profile := rfl
@[simp] theorem clearFlags_bitCount (s : State) : (clearFlags s).bitCount = s.bitCount := rfl
@[simp] theorem clearFlags_zeroCrossCount (s : State) : (clearFlags s).zeroCrossCount = s.zeroCrossCount := rfl
@[simp] theorem clearFlags_bitMask (s : State) : (clearFlags s).bitMask = s.bitMask := rfl
@[simp] theorem clearFlags_accumulatorBuffer (s : State) : (clearFlags s).accumulatorBuffer = s.accumulatorBuffer := rfl
@[simp] theorem clearFlags_unitPending (s : State) : (clearFlags s).unitPending = s.unitPending := rfl
@[simp] theorem clearFlags_unitHousePat (s : State) : (clearFlags s).unitHousePat = s.unitHousePat := rfl
@[simp] theorem clearFlags_zcPrev (s : State) : (clearFlags s).zcPrev = s.zcPrev := rfl
@[simp] theorem clearFlags_zcPending (s : State) : (clearFlags s).zcPending = s.zcPending := rfl
@[simp] theorem clearFlags_txReg (s : State) : (clearFlags s).txReg = s.txReg := rfl
@[simp] theorem clearFlags_calElapsed (s : State) : (clearFlags s).calElapsed = s.calElapsed := rfl

/-! ### beginTick -/

@[simp] theorem beginTick_params (inp : Inputs) (s : State) : (beginTick inp s).params = s.params := rfl
@[simp] theorem beginTick_tick (inp : Inputs) (s : State) : (beginTick inp s).tick = s.tick + 1 := rfl
@[simp] theorem beginTick_inputs (inp : Inputs) (s : State) : (beginTick inp s).inputs = s.inputs.tail := rfl
@[simp] theorem beginTick_rspData (inp : Inputs) (s : State) : (beginTick inp s).rspData = Config.freeRspData s.tick := rfl
@[simp] theorem beginTick_rspHit (inp : Inputs) (s : State) : (beginTick inp s).rspHit = Config.freeRspHit s.tick := rfl
@[simp] theorem beginTick_txHousePat (inp : Inputs) (s : State) : (beginTick inp s).txHousePat = s.txHousePat := rfl
@[simp] theorem beginTick_txPayload (inp : Inputs) (s : State) : (beginTick inp s).txPayload = s.txPayload := rfl
@[simp] theorem beginTick_txRepeat (inp : Inputs) (s : State) : (beginTick inp s).txRepeat = s.txRepeat := rfl
@[simp] theorem beginTick_rxHouse (inp : Inputs) (s : State) : (beginTick inp s).rxHouse = s.rxHouse := rfl
@[simp] theorem beginTick_rxUnit (inp : Inputs) (s : State) : (beginTick inp s).rxUnit = s.rxUnit := rfl
@[simp] theorem beginTick_rxCommand (inp : Inputs) (s : State) : (beginTick inp s).rxCommand = s.rxCommand := rfl
@[simp] theorem beginTick_rxStart (inp : Inputs) (s : State) : (beginTick inp s).rxStart = s.rxStart := rfl
@[simp] theorem beginTick_mainState (inp : Inputs) (s : State) : (beginTick inp s).mainState = s.mainState := rfl
@[simp] theorem beginTick_txField (inp : Inputs) (s : State) : (beginTick inp s).txField = s.txField := rfl
@[simp] theorem beginTick_txBit (inp : Inputs) (s : State) : (beginTick inp s).txBit = s.txBit := rfl
@[simp] theorem beginTick_txHalf (inp : Inputs) (s : State) : (beginTick inp s).txHalf = s.txHalf := rfl
@[simp] theorem beginTick_txPhase (inp : Inputs) (s : State) : (beginTick inp s).txPhase = s.txPhase := rfl
@[simp] theorem beginTick_edgeCount (inp : Inputs) (s : State) : (beginTick inp s).edgeCount = s.edgeCount := rfl
@[simp] theorem beginTick_mainTimer (inp : Inputs) (s : State) : (beginTick inp s).mainTimer = s.mainTimer := rfl
@[simp] theorem beginTick_rxPhase (inp : Inputs) (s : State) : (beginTick inp s).rxPhase = s.rxPhase := rfl
@[simp] theorem beginTick_rxTimer (inp : Inputs) (s : State) : (beginTick inp s).rxTimer = s.rxTimer := rfl
@[simp] theorem beginTick_frameReadyFlag (inp : Inputs) (s : State) : (beginTick inp s).frameReadyFlag = s.frameReadyFlag := rfl
@[simp] theorem beginTick_commandReady (inp : Inputs) (s : State) : (beginTick inp s).commandReady = s.commandReady := rfl
@[simp] theorem beginTick_calibrated (inp : Inputs) (s : State) : (beginTick inp s).calibrated = s.calibrated := rfl
@[simp] theorem beginTick_rxArmed (inp : Inputs) (s : State) : (beginTick inp s).rxArmed = s.rxArmed := rfl
@[simp] theorem beginTick_profile (inp : Inputs) (s : State) : (beginTick inp s).profile = s.profile := rfl
@[simp] theorem beginTick_bitCount (inp : Inputs) (s : State) : (beginTick inp s).bitCount = s.bitCount := rfl
@[simp] theorem beginTick_zeroCrossCount (inp : Inputs) (s : State) : (beginTick inp s).zeroCrossCount = s.zeroCrossCount := rfl
@[simp] theorem beginTick_bitMask (inp : Inputs) (s : State) : (beginTick inp s).bitMask = s.bitMask := rfl
@[simp] theorem beginTick_accumulatorBuffer (inp : Inputs) (s : State) : (beginTick inp s).accumulatorBuffer = s.accumulatorBuffer := rfl
@[simp] theorem beginTick_unitPending (inp : Inputs) (s : State) : (beginTick inp s).unitPending = s.unitPending := rfl
@[simp] theorem beginTick_unitHousePat (inp : Inputs) (s : State) : (beginTick inp s).unitHousePat = s.unitHousePat := rfl
@[simp] theorem beginTick_zcPrev (inp : Inputs) (s : State) : (beginTick inp s).zcPrev = inp.zcIn := rfl
@[simp] theorem beginTick_zcPending (inp : Inputs) (s : State) : (beginTick inp s).zcPending = s.zcPending := rfl
@[simp] theorem beginTick_txReg (inp : Inputs) (s : State) : (beginTick inp s).txReg = s.txReg := rfl
@[simp] theorem beginTick_calElapsed (inp : Inputs) (s : State) : (beginTick inp s).calElapsed = s.calElapsed := rfl

/-! ### latchOperands -/

@[simp] theorem latchOperands_params (house : HouseCode) (payload : PayloadPattern) (reps : BitVec 8) (s : State) : (latchOperands house payload reps s).params = s.params := rfl
@[simp] theorem latchOperands_tick (house : HouseCode) (payload : PayloadPattern) (reps : BitVec 8) (s : State) : (latchOperands house payload reps s).tick = s.tick := rfl
@[simp] theorem latchOperands_inputs (house : HouseCode) (payload : PayloadPattern) (reps : BitVec 8) (s : State) : (latchOperands house payload reps s).inputs = s.inputs := rfl
@[simp] theorem latchOperands_rspData (house : HouseCode) (payload : PayloadPattern) (reps : BitVec 8) (s : State) : (latchOperands house payload reps s).rspData = s.rspData := rfl
@[simp] theorem latchOperands_rspHit (house : HouseCode) (payload : PayloadPattern) (reps : BitVec 8) (s : State) : (latchOperands house payload reps s).rspHit = s.rspHit := rfl
@[simp] theorem latchOperands_txHousePat (house : HouseCode) (payload : PayloadPattern) (reps : BitVec 8) (s : State) : (latchOperands house payload reps s).txHousePat = houseToPattern house := rfl
@[simp] theorem latchOperands_txPayload (house : HouseCode) (payload : PayloadPattern) (reps : BitVec 8) (s : State) : (latchOperands house payload reps s).txPayload = payload := rfl
@[simp] theorem latchOperands_txRepeat (house : HouseCode) (payload : PayloadPattern) (reps : BitVec 8) (s : State) : (latchOperands house payload reps s).txRepeat = reps := rfl
@[simp] theorem latchOperands_rxHouse (house : HouseCode) (payload : PayloadPattern) (reps : BitVec 8) (s : State) : (latchOperands house payload reps s).rxHouse = s.rxHouse := rfl
@[simp] theorem latchOperands_rxUnit (house : HouseCode) (payload : PayloadPattern) (reps : BitVec 8) (s : State) : (latchOperands house payload reps s).rxUnit = s.rxUnit := rfl
@[simp] theorem latchOperands_rxCommand (house : HouseCode) (payload : PayloadPattern) (reps : BitVec 8) (s : State) : (latchOperands house payload reps s).rxCommand = s.rxCommand := rfl
@[simp] theorem latchOperands_rxStart (house : HouseCode) (payload : PayloadPattern) (reps : BitVec 8) (s : State) : (latchOperands house payload reps s).rxStart = s.rxStart := rfl
@[simp] theorem latchOperands_mainState (house : HouseCode) (payload : PayloadPattern) (reps : BitVec 8) (s : State) : (latchOperands house payload reps s).mainState = s.mainState := rfl
@[simp] theorem latchOperands_txField (house : HouseCode) (payload : PayloadPattern) (reps : BitVec 8) (s : State) : (latchOperands house payload reps s).txField = s.txField := rfl
@[simp] theorem latchOperands_txBit (house : HouseCode) (payload : PayloadPattern) (reps : BitVec 8) (s : State) : (latchOperands house payload reps s).txBit = s.txBit := rfl
@[simp] theorem latchOperands_txHalf (house : HouseCode) (payload : PayloadPattern) (reps : BitVec 8) (s : State) : (latchOperands house payload reps s).txHalf = s.txHalf := rfl
@[simp] theorem latchOperands_txPhase (house : HouseCode) (payload : PayloadPattern) (reps : BitVec 8) (s : State) : (latchOperands house payload reps s).txPhase = s.txPhase := rfl
@[simp] theorem latchOperands_edgeCount (house : HouseCode) (payload : PayloadPattern) (reps : BitVec 8) (s : State) : (latchOperands house payload reps s).edgeCount = s.edgeCount := rfl
@[simp] theorem latchOperands_mainTimer (house : HouseCode) (payload : PayloadPattern) (reps : BitVec 8) (s : State) : (latchOperands house payload reps s).mainTimer = s.mainTimer := rfl
@[simp] theorem latchOperands_rxPhase (house : HouseCode) (payload : PayloadPattern) (reps : BitVec 8) (s : State) : (latchOperands house payload reps s).rxPhase = s.rxPhase := rfl
@[simp] theorem latchOperands_rxTimer (house : HouseCode) (payload : PayloadPattern) (reps : BitVec 8) (s : State) : (latchOperands house payload reps s).rxTimer = s.rxTimer := rfl
@[simp] theorem latchOperands_frameReadyFlag (house : HouseCode) (payload : PayloadPattern) (reps : BitVec 8) (s : State) : (latchOperands house payload reps s).frameReadyFlag = s.frameReadyFlag := rfl
@[simp] theorem latchOperands_commandReady (house : HouseCode) (payload : PayloadPattern) (reps : BitVec 8) (s : State) : (latchOperands house payload reps s).commandReady = s.commandReady := rfl
@[simp] theorem latchOperands_calibrated (house : HouseCode) (payload : PayloadPattern) (reps : BitVec 8) (s : State) : (latchOperands house payload reps s).calibrated = s.calibrated := rfl
@[simp] theorem latchOperands_rxArmed (house : HouseCode) (payload : PayloadPattern) (reps : BitVec 8) (s : State) : (latchOperands house payload reps s).rxArmed = s.rxArmed := rfl
@[simp] theorem latchOperands_profile (house : HouseCode) (payload : PayloadPattern) (reps : BitVec 8) (s : State) : (latchOperands house payload reps s).profile = s.profile := rfl
@[simp] theorem latchOperands_bitCount (house : HouseCode) (payload : PayloadPattern) (reps : BitVec 8) (s : State) : (latchOperands house payload reps s).bitCount = s.bitCount := rfl
@[simp] theorem latchOperands_zeroCrossCount (house : HouseCode) (payload : PayloadPattern) (reps : BitVec 8) (s : State) : (latchOperands house payload reps s).zeroCrossCount = s.zeroCrossCount := rfl
@[simp] theorem latchOperands_bitMask (house : HouseCode) (payload : PayloadPattern) (reps : BitVec 8) (s : State) : (latchOperands house payload reps s).bitMask = s.bitMask := rfl
@[simp] theorem latchOperands_accumulatorBuffer (house : HouseCode) (payload : PayloadPattern) (reps : BitVec 8) (s : State) : (latchOperands house payload reps s).accumulatorBuffer = s.accumulatorBuffer := rfl
@[simp] theorem latchOperands_unitPending (house : HouseCode) (payload : PayloadPattern) (reps : BitVec 8) (s : State) : (latchOperands house payload reps s).unitPending = s.unitPending := rfl
@[simp] theorem latchOperands_unitHousePat (house : HouseCode) (payload : PayloadPattern) (reps : BitVec 8) (s : State) : (latchOperands house payload reps s).unitHousePat = s.unitHousePat := rfl
@[simp] theorem latchOperands_zcPrev (house : HouseCode) (payload : PayloadPattern) (reps : BitVec 8) (s : State) : (latchOperands house payload reps s).zcPrev = s.zcPrev := rfl
@[simp] theorem latchOperands_zcPending (house : HouseCode) (payload : PayloadPattern) (reps : BitVec 8) (s : State) : (latchOperands house payload reps s).zcPending = s.zcPending := rfl
@[simp] theorem latchOperands_txReg (house : HouseCode) (payload : PayloadPattern) (reps : BitVec 8) (s : State) : (latchOperands house payload reps s).txReg = s.txReg := rfl
@[simp] theorem latchOperands_calElapsed (house : HouseCode) (payload : PayloadPattern) (reps : BitVec 8) (s : State) : (latchOperands house payload reps s).calElapsed = s.calElapsed := rfl

/-! ### startRepetition -/

@[simp] theorem startRepetition_params (s : State) : (startRepetition s).params = s.params := rfl
@[simp] theorem startRepetition_tick (s : State) : (startRepetition s).tick = s.tick := rfl
@[simp] theorem startRepetition_inputs (s : State) : (startRepetition s).inputs = s.inputs := rfl
@[simp] theorem startRepetition_rspData (s : State) : (startRepetition s).rspData = s.rspData := rfl
@[simp] theorem startRepetition_rspHit (s : State) : (startRepetition s).rspHit = s.rspHit := rfl
@[simp] theorem startRepetition_txHousePat (s : State) : (startRepetition s).txHousePat = s.txHousePat := rfl
@[simp] theorem startRepetition_txPayload (s : State) : (startRepetition s).txPayload = s.txPayload := rfl
@[simp] theorem startRepetition_txRepeat (s : State) : (startRepetition s).txRepeat = s.txRepeat := rfl
@[simp] theorem startRepetition_rxHouse (s : State) : (startRepetition s).rxHouse = s.rxHouse := rfl
@[simp] theorem startRepetition_rxUnit (s : State) : (startRepetition s).rxUnit = s.rxUnit := rfl
@[simp] theorem startRepetition_rxCommand (s : State) : (startRepetition s).rxCommand = s.rxCommand := rfl
@[simp] theorem startRepetition_rxStart (s : State) : (startRepetition s).rxStart = s.rxStart := rfl
@[simp] theorem startRepetition_mainState (s : State) : (startRepetition s).mainState = .txWait := rfl
@[simp] theorem startRepetition_txField (s : State) : (startRepetition s).txField = .start := rfl
@[simp] theorem startRepetition_txBit (s : State) : (startRepetition s).txBit = 3 := rfl
@[simp] theorem startRepetition_txHalf (s : State) : (startRepetition s).txHalf = .plain := rfl
@[simp] theorem startRepetition_txPhase (s : State) : (startRepetition s).txPhase = s.txPhase := rfl
@[simp] theorem startRepetition_edgeCount (s : State) : (startRepetition s).edgeCount = s.edgeCount := rfl
@[simp] theorem startRepetition_mainTimer (s : State) : (startRepetition s).mainTimer = s.mainTimer := rfl
@[simp] theorem startRepetition_rxPhase (s : State) : (startRepetition s).rxPhase = s.rxPhase := rfl
@[simp] theorem startRepetition_rxTimer (s : State) : (startRepetition s).rxTimer = s.rxTimer := rfl
@[simp] theorem startRepetition_frameReadyFlag (s : State) : (startRepetition s).frameReadyFlag = s.frameReadyFlag := rfl
@[simp] theorem startRepetition_commandReady (s : State) : (startRepetition s).commandReady = s.commandReady := rfl
@[simp] theorem startRepetition_calibrated (s : State) : (startRepetition s).calibrated = s.calibrated := rfl
@[simp] theorem startRepetition_rxArmed (s : State) : (startRepetition s).rxArmed = s.rxArmed := rfl
@[simp] theorem startRepetition_profile (s : State) : (startRepetition s).profile = s.profile := rfl
@[simp] theorem startRepetition_bitCount (s : State) : (startRepetition s).bitCount = s.bitCount := rfl
@[simp] theorem startRepetition_zeroCrossCount (s : State) : (startRepetition s).zeroCrossCount = s.zeroCrossCount := rfl
@[simp] theorem startRepetition_bitMask (s : State) : (startRepetition s).bitMask = s.bitMask := rfl
@[simp] theorem startRepetition_accumulatorBuffer (s : State) : (startRepetition s).accumulatorBuffer = s.accumulatorBuffer := rfl
@[simp] theorem startRepetition_unitPending (s : State) : (startRepetition s).unitPending = s.unitPending := rfl
@[simp] theorem startRepetition_unitHousePat (s : State) : (startRepetition s).unitHousePat = s.unitHousePat := rfl
@[simp] theorem startRepetition_zcPrev (s : State) : (startRepetition s).zcPrev = s.zcPrev := rfl
@[simp] theorem startRepetition_zcPending (s : State) : (startRepetition s).zcPending = s.zcPending := rfl
@[simp] theorem startRepetition_txReg (s : State) : (startRepetition s).txReg = s.txReg := rfl
@[simp] theorem startRepetition_calElapsed (s : State) : (startRepetition s).calElapsed = s.calElapsed := rfl

/-! ### waitSlot -/

@[simp] theorem waitSlot_params (field : TxField) (bit : Fin 5) (half : TxHalf) (s : State) : (waitSlot field bit half s).params = s.params := rfl
@[simp] theorem waitSlot_tick (field : TxField) (bit : Fin 5) (half : TxHalf) (s : State) : (waitSlot field bit half s).tick = s.tick := rfl
@[simp] theorem waitSlot_inputs (field : TxField) (bit : Fin 5) (half : TxHalf) (s : State) : (waitSlot field bit half s).inputs = s.inputs := rfl
@[simp] theorem waitSlot_rspData (field : TxField) (bit : Fin 5) (half : TxHalf) (s : State) : (waitSlot field bit half s).rspData = s.rspData := rfl
@[simp] theorem waitSlot_rspHit (field : TxField) (bit : Fin 5) (half : TxHalf) (s : State) : (waitSlot field bit half s).rspHit = s.rspHit := rfl
@[simp] theorem waitSlot_txHousePat (field : TxField) (bit : Fin 5) (half : TxHalf) (s : State) : (waitSlot field bit half s).txHousePat = s.txHousePat := rfl
@[simp] theorem waitSlot_txPayload (field : TxField) (bit : Fin 5) (half : TxHalf) (s : State) : (waitSlot field bit half s).txPayload = s.txPayload := rfl
@[simp] theorem waitSlot_txRepeat (field : TxField) (bit : Fin 5) (half : TxHalf) (s : State) : (waitSlot field bit half s).txRepeat = s.txRepeat := rfl
@[simp] theorem waitSlot_rxHouse (field : TxField) (bit : Fin 5) (half : TxHalf) (s : State) : (waitSlot field bit half s).rxHouse = s.rxHouse := rfl
@[simp] theorem waitSlot_rxUnit (field : TxField) (bit : Fin 5) (half : TxHalf) (s : State) : (waitSlot field bit half s).rxUnit = s.rxUnit := rfl
@[simp] theorem waitSlot_rxCommand (field : TxField) (bit : Fin 5) (half : TxHalf) (s : State) : (waitSlot field bit half s).rxCommand = s.rxCommand := rfl
@[simp] theorem waitSlot_rxStart (field : TxField) (bit : Fin 5) (half : TxHalf) (s : State) : (waitSlot field bit half s).rxStart = s.rxStart := rfl
@[simp] theorem waitSlot_mainState (field : TxField) (bit : Fin 5) (half : TxHalf) (s : State) : (waitSlot field bit half s).mainState = .txWait := rfl
@[simp] theorem waitSlot_txField (field : TxField) (bit : Fin 5) (half : TxHalf) (s : State) : (waitSlot field bit half s).txField = field := rfl
@[simp] theorem waitSlot_txBit (field : TxField) (bit : Fin 5) (half : TxHalf) (s : State) : (waitSlot field bit half s).txBit = bit := rfl
@[simp] theorem waitSlot_txHalf (field : TxField) (bit : Fin 5) (half : TxHalf) (s : State) : (waitSlot field bit half s).txHalf = half := rfl
@[simp] theorem waitSlot_txPhase (field : TxField) (bit : Fin 5) (half : TxHalf) (s : State) : (waitSlot field bit half s).txPhase = s.txPhase := rfl
@[simp] theorem waitSlot_edgeCount (field : TxField) (bit : Fin 5) (half : TxHalf) (s : State) : (waitSlot field bit half s).edgeCount = s.edgeCount := rfl
@[simp] theorem waitSlot_mainTimer (field : TxField) (bit : Fin 5) (half : TxHalf) (s : State) : (waitSlot field bit half s).mainTimer = s.mainTimer := rfl
@[simp] theorem waitSlot_rxPhase (field : TxField) (bit : Fin 5) (half : TxHalf) (s : State) : (waitSlot field bit half s).rxPhase = s.rxPhase := rfl
@[simp] theorem waitSlot_rxTimer (field : TxField) (bit : Fin 5) (half : TxHalf) (s : State) : (waitSlot field bit half s).rxTimer = s.rxTimer := rfl
@[simp] theorem waitSlot_frameReadyFlag (field : TxField) (bit : Fin 5) (half : TxHalf) (s : State) : (waitSlot field bit half s).frameReadyFlag = s.frameReadyFlag := rfl
@[simp] theorem waitSlot_commandReady (field : TxField) (bit : Fin 5) (half : TxHalf) (s : State) : (waitSlot field bit half s).commandReady = s.commandReady := rfl
@[simp] theorem waitSlot_calibrated (field : TxField) (bit : Fin 5) (half : TxHalf) (s : State) : (waitSlot field bit half s).calibrated = s.calibrated := rfl
@[simp] theorem waitSlot_rxArmed (field : TxField) (bit : Fin 5) (half : TxHalf) (s : State) : (waitSlot field bit half s).rxArmed = s.rxArmed := rfl
@[simp] theorem waitSlot_profile (field : TxField) (bit : Fin 5) (half : TxHalf) (s : State) : (waitSlot field bit half s).profile = s.profile := rfl
@[simp] theorem waitSlot_bitCount (field : TxField) (bit : Fin 5) (half : TxHalf) (s : State) : (waitSlot field bit half s).bitCount = s.bitCount := rfl
@[simp] theorem waitSlot_zeroCrossCount (field : TxField) (bit : Fin 5) (half : TxHalf) (s : State) : (waitSlot field bit half s).zeroCrossCount = s.zeroCrossCount := rfl
@[simp] theorem waitSlot_bitMask (field : TxField) (bit : Fin 5) (half : TxHalf) (s : State) : (waitSlot field bit half s).bitMask = s.bitMask := rfl
@[simp] theorem waitSlot_accumulatorBuffer (field : TxField) (bit : Fin 5) (half : TxHalf) (s : State) : (waitSlot field bit half s).accumulatorBuffer = s.accumulatorBuffer := rfl
@[simp] theorem waitSlot_unitPending (field : TxField) (bit : Fin 5) (half : TxHalf) (s : State) : (waitSlot field bit half s).unitPending = s.unitPending := rfl
@[simp] theorem waitSlot_unitHousePat (field : TxField) (bit : Fin 5) (half : TxHalf) (s : State) : (waitSlot field bit half s).unitHousePat = s.unitHousePat := rfl
@[simp] theorem waitSlot_zcPrev (field : TxField) (bit : Fin 5) (half : TxHalf) (s : State) : (waitSlot field bit half s).zcPrev = s.zcPrev := rfl
@[simp] theorem waitSlot_zcPending (field : TxField) (bit : Fin 5) (half : TxHalf) (s : State) : (waitSlot field bit half s).zcPending = s.zcPending := rfl
@[simp] theorem waitSlot_txReg (field : TxField) (bit : Fin 5) (half : TxHalf) (s : State) : (waitSlot field bit half s).txReg = s.txReg := rfl
@[simp] theorem waitSlot_calElapsed (field : TxField) (bit : Fin 5) (half : TxHalf) (s : State) : (waitSlot field bit half s).calElapsed = s.calElapsed := rfl

/-! ### calSyncEdge -/

@[simp] theorem calSyncEdge_params (s : State) : (calSyncEdge s).params = s.params := rfl
@[simp] theorem calSyncEdge_tick (s : State) : (calSyncEdge s).tick = s.tick := rfl
@[simp] theorem calSyncEdge_inputs (s : State) : (calSyncEdge s).inputs = s.inputs := rfl
@[simp] theorem calSyncEdge_rspData (s : State) : (calSyncEdge s).rspData = s.rspData := rfl
@[simp] theorem calSyncEdge_rspHit (s : State) : (calSyncEdge s).rspHit = s.rspHit := rfl
@[simp] theorem calSyncEdge_txHousePat (s : State) : (calSyncEdge s).txHousePat = s.txHousePat := rfl
@[simp] theorem calSyncEdge_txPayload (s : State) : (calSyncEdge s).txPayload = s.txPayload := rfl
@[simp] theorem calSyncEdge_txRepeat (s : State) : (calSyncEdge s).txRepeat = s.txRepeat := rfl
@[simp] theorem calSyncEdge_rxHouse (s : State) : (calSyncEdge s).rxHouse = s.rxHouse := rfl
@[simp] theorem calSyncEdge_rxUnit (s : State) : (calSyncEdge s).rxUnit = s.rxUnit := rfl
@[simp] theorem calSyncEdge_rxCommand (s : State) : (calSyncEdge s).rxCommand = s.rxCommand := rfl
@[simp] theorem calSyncEdge_rxStart (s : State) : (calSyncEdge s).rxStart = s.rxStart := rfl
@[simp] theorem calSyncEdge_mainState (s : State) : (calSyncEdge s).mainState = .calCount := rfl
@[simp] theorem calSyncEdge_txField (s : State) : (calSyncEdge s).txField = s.txField := rfl
@[simp] theorem calSyncEdge_txBit (s : State) : (calSyncEdge s).txBit = s.txBit := rfl
@[simp] theorem calSyncEdge_txHalf (s : State) : (calSyncEdge s).txHalf = s.txHalf := rfl
@[simp] theorem calSyncEdge_txPhase (s : State) : (calSyncEdge s).txPhase = s.txPhase := rfl
@[simp] theorem calSyncEdge_edgeCount (s : State) : (calSyncEdge s).edgeCount = calEdges := rfl
@[simp] theorem calSyncEdge_mainTimer (s : State) : (calSyncEdge s).mainTimer = s.mainTimer := rfl
@[simp] theorem calSyncEdge_rxPhase (s : State) : (calSyncEdge s).rxPhase = s.rxPhase := rfl
@[simp] theorem calSyncEdge_rxTimer (s : State) : (calSyncEdge s).rxTimer = s.rxTimer := rfl
@[simp] theorem calSyncEdge_frameReadyFlag (s : State) : (calSyncEdge s).frameReadyFlag = s.frameReadyFlag := rfl
@[simp] theorem calSyncEdge_commandReady (s : State) : (calSyncEdge s).commandReady = s.commandReady := rfl
@[simp] theorem calSyncEdge_calibrated (s : State) : (calSyncEdge s).calibrated = s.calibrated := rfl
@[simp] theorem calSyncEdge_rxArmed (s : State) : (calSyncEdge s).rxArmed = s.rxArmed := rfl
@[simp] theorem calSyncEdge_profile (s : State) : (calSyncEdge s).profile = s.profile := rfl
@[simp] theorem calSyncEdge_bitCount (s : State) : (calSyncEdge s).bitCount = s.bitCount := rfl
@[simp] theorem calSyncEdge_zeroCrossCount (s : State) : (calSyncEdge s).zeroCrossCount = s.zeroCrossCount := rfl
@[simp] theorem calSyncEdge_bitMask (s : State) : (calSyncEdge s).bitMask = s.bitMask := rfl
@[simp] theorem calSyncEdge_accumulatorBuffer (s : State) : (calSyncEdge s).accumulatorBuffer = s.accumulatorBuffer := rfl
@[simp] theorem calSyncEdge_unitPending (s : State) : (calSyncEdge s).unitPending = s.unitPending := rfl
@[simp] theorem calSyncEdge_unitHousePat (s : State) : (calSyncEdge s).unitHousePat = s.unitHousePat := rfl
@[simp] theorem calSyncEdge_zcPrev (s : State) : (calSyncEdge s).zcPrev = s.zcPrev := rfl
@[simp] theorem calSyncEdge_zcPending (s : State) : (calSyncEdge s).zcPending = s.zcPending := rfl
@[simp] theorem calSyncEdge_txReg (s : State) : (calSyncEdge s).txReg = s.txReg := rfl
@[simp] theorem calSyncEdge_calElapsed (s : State) : (calSyncEdge s).calElapsed = 0 := rfl

/-! ### returnHandler -/

@[simp] theorem returnHandler_params (s : State) : (returnHandler s).params = s.params := rfl
@[simp] theorem returnHandler_tick (s : State) : (returnHandler s).tick = s.tick := rfl
@[simp] theorem returnHandler_inputs (s : State) : (returnHandler s).inputs = s.inputs := rfl
@[simp] theorem returnHandler_rspData (s : State) : (returnHandler s).rspData = s.rspData := rfl
@[simp] theorem returnHandler_rspHit (s : State) : (returnHandler s).rspHit = s.rspHit := rfl
@[simp] theorem returnHandler_txHousePat (s : State) : (returnHandler s).txHousePat = s.txHousePat := rfl
@[simp] theorem returnHandler_txPayload (s : State) : (returnHandler s).txPayload = s.txPayload := rfl
@[simp] theorem returnHandler_txRepeat (s : State) : (returnHandler s).txRepeat = s.txRepeat := rfl
@[simp] theorem returnHandler_rxHouse (s : State) : (returnHandler s).rxHouse = s.rxHouse := rfl
@[simp] theorem returnHandler_rxUnit (s : State) : (returnHandler s).rxUnit = s.rxUnit := rfl
@[simp] theorem returnHandler_rxCommand (s : State) : (returnHandler s).rxCommand = s.rxCommand := rfl
@[simp] theorem returnHandler_rxStart (s : State) : (returnHandler s).rxStart = s.rxStart := rfl
@[simp] theorem returnHandler_mainState (s : State) : (returnHandler s).mainState = s.mainState := rfl
@[simp] theorem returnHandler_txField (s : State) : (returnHandler s).txField = s.txField := rfl
@[simp] theorem returnHandler_txBit (s : State) : (returnHandler s).txBit = s.txBit := rfl
@[simp] theorem returnHandler_txHalf (s : State) : (returnHandler s).txHalf = s.txHalf := rfl
@[simp] theorem returnHandler_txPhase (s : State) : (returnHandler s).txPhase = s.txPhase := rfl
@[simp] theorem returnHandler_edgeCount (s : State) : (returnHandler s).edgeCount = s.edgeCount := rfl
@[simp] theorem returnHandler_mainTimer (s : State) : (returnHandler s).mainTimer = s.mainTimer := rfl
@[simp] theorem returnHandler_rxPhase (s : State) : (returnHandler s).rxPhase = .idle := rfl
@[simp] theorem returnHandler_rxTimer (s : State) : (returnHandler s).rxTimer = s.rxTimer := rfl
@[simp] theorem returnHandler_frameReadyFlag (s : State) : (returnHandler s).frameReadyFlag = s.frameReadyFlag := rfl
@[simp] theorem returnHandler_commandReady (s : State) : (returnHandler s).commandReady = s.commandReady := rfl
@[simp] theorem returnHandler_calibrated (s : State) : (returnHandler s).calibrated = s.calibrated := rfl
@[simp] theorem returnHandler_rxArmed (s : State) : (returnHandler s).rxArmed = s.rxArmed := rfl
@[simp] theorem returnHandler_profile (s : State) : (returnHandler s).profile = s.profile := rfl
@[simp] theorem returnHandler_bitCount (s : State) : (returnHandler s).bitCount = s.bitCount := rfl
@[simp] theorem returnHandler_zeroCrossCount (s : State) : (returnHandler s).zeroCrossCount = s.zeroCrossCount := rfl
@[simp] theorem returnHandler_bitMask (s : State) : (returnHandler s).bitMask = s.bitMask := rfl
@[simp] theorem returnHandler_accumulatorBuffer (s : State) : (returnHandler s).accumulatorBuffer = s.accumulatorBuffer := rfl
@[simp] theorem returnHandler_unitPending (s : State) : (returnHandler s).unitPending = s.unitPending := rfl
@[simp] theorem returnHandler_unitHousePat (s : State) : (returnHandler s).unitHousePat = s.unitHousePat := rfl
@[simp] theorem returnHandler_zcPrev (s : State) : (returnHandler s).zcPrev = s.zcPrev := rfl
@[simp] theorem returnHandler_zcPending (s : State) : (returnHandler s).zcPending = s.zcPending := rfl
@[simp] theorem returnHandler_txReg (s : State) : (returnHandler s).txReg = s.txReg := rfl
@[simp] theorem returnHandler_calElapsed (s : State) : (returnHandler s).calElapsed = s.calElapsed := rfl

/-! ### suspendOffset -/

@[simp] theorem suspendOffset_params (s : State) : (suspendOffset s).params = s.params := rfl
@[simp] theorem suspendOffset_tick (s : State) : (suspendOffset s).tick = s.tick := rfl
@[simp] theorem suspendOffset_inputs (s : State) : (suspendOffset s).inputs = s.inputs := rfl
@[simp] theorem suspendOffset_rspData (s : State) : (suspendOffset s).rspData = s.rspData := rfl
@[simp] theorem suspendOffset_rspHit (s : State) : (suspendOffset s).rspHit = s.rspHit := rfl
@[simp] theorem suspendOffset_txHousePat (s : State) : (suspendOffset s).txHousePat = s.txHousePat := rfl
@[simp] theorem suspendOffset_txPayload (s : State) : (suspendOffset s).txPayload = s.txPayload := rfl
@[simp] theorem suspendOffset_txRepeat (s : State) : (suspendOffset s).txRepeat = s.txRepeat := rfl
@[simp] theorem suspendOffset_rxHouse (s : State) : (suspendOffset s).rxHouse = s.rxHouse := rfl
@[simp] theorem suspendOffset_rxUnit (s : State) : (suspendOffset s).rxUnit = s.rxUnit := rfl
@[simp] theorem suspendOffset_rxCommand (s : State) : (suspendOffset s).rxCommand = s.rxCommand := rfl
@[simp] theorem suspendOffset_rxStart (s : State) : (suspendOffset s).rxStart = s.rxStart := rfl
@[simp] theorem suspendOffset_mainState (s : State) : (suspendOffset s).mainState = s.mainState := rfl
@[simp] theorem suspendOffset_txField (s : State) : (suspendOffset s).txField = s.txField := rfl
@[simp] theorem suspendOffset_txBit (s : State) : (suspendOffset s).txBit = s.txBit := rfl
@[simp] theorem suspendOffset_txHalf (s : State) : (suspendOffset s).txHalf = s.txHalf := rfl
@[simp] theorem suspendOffset_txPhase (s : State) : (suspendOffset s).txPhase = s.txPhase := rfl
@[simp] theorem suspendOffset_edgeCount (s : State) : (suspendOffset s).edgeCount = s.edgeCount := rfl
@[simp] theorem suspendOffset_mainTimer (s : State) : (suspendOffset s).mainTimer = s.mainTimer := rfl
@[simp] theorem suspendOffset_rxPhase (s : State) : (suspendOffset s).rxPhase = .offset := rfl
@[simp] theorem suspendOffset_rxTimer (s : State) : (suspendOffset s).rxTimer = offsetTicks s := rfl
@[simp] theorem suspendOffset_frameReadyFlag (s : State) : (suspendOffset s).frameReadyFlag = s.frameReadyFlag := rfl
@[simp] theorem suspendOffset_commandReady (s : State) : (suspendOffset s).commandReady = s.commandReady := rfl
@[simp] theorem suspendOffset_calibrated (s : State) : (suspendOffset s).calibrated = s.calibrated := rfl
@[simp] theorem suspendOffset_rxArmed (s : State) : (suspendOffset s).rxArmed = s.rxArmed := rfl
@[simp] theorem suspendOffset_profile (s : State) : (suspendOffset s).profile = s.profile := rfl
@[simp] theorem suspendOffset_bitCount (s : State) : (suspendOffset s).bitCount = s.bitCount := rfl
@[simp] theorem suspendOffset_zeroCrossCount (s : State) : (suspendOffset s).zeroCrossCount = s.zeroCrossCount := rfl
@[simp] theorem suspendOffset_bitMask (s : State) : (suspendOffset s).bitMask = s.bitMask := rfl
@[simp] theorem suspendOffset_accumulatorBuffer (s : State) : (suspendOffset s).accumulatorBuffer = s.accumulatorBuffer := rfl
@[simp] theorem suspendOffset_unitPending (s : State) : (suspendOffset s).unitPending = s.unitPending := rfl
@[simp] theorem suspendOffset_unitHousePat (s : State) : (suspendOffset s).unitHousePat = s.unitHousePat := rfl
@[simp] theorem suspendOffset_zcPrev (s : State) : (suspendOffset s).zcPrev = s.zcPrev := rfl
@[simp] theorem suspendOffset_zcPending (s : State) : (suspendOffset s).zcPending = s.zcPending := rfl
@[simp] theorem suspendOffset_txReg (s : State) : (suspendOffset s).txReg = s.txReg := rfl
@[simp] theorem suspendOffset_calElapsed (s : State) : (suspendOffset s).calElapsed = s.calElapsed := rfl

/-! ### suspendHold -/

@[simp] theorem suspendHold_params (s : State) : (suspendHold s).params = s.params := rfl
@[simp] theorem suspendHold_tick (s : State) : (suspendHold s).tick = s.tick := rfl
@[simp] theorem suspendHold_inputs (s : State) : (suspendHold s).inputs = s.inputs := rfl
@[simp] theorem suspendHold_rspData (s : State) : (suspendHold s).rspData = s.rspData := rfl
@[simp] theorem suspendHold_rspHit (s : State) : (suspendHold s).rspHit = s.rspHit := rfl
@[simp] theorem suspendHold_txHousePat (s : State) : (suspendHold s).txHousePat = s.txHousePat := rfl
@[simp] theorem suspendHold_txPayload (s : State) : (suspendHold s).txPayload = s.txPayload := rfl
@[simp] theorem suspendHold_txRepeat (s : State) : (suspendHold s).txRepeat = s.txRepeat := rfl
@[simp] theorem suspendHold_rxHouse (s : State) : (suspendHold s).rxHouse = s.rxHouse := rfl
@[simp] theorem suspendHold_rxUnit (s : State) : (suspendHold s).rxUnit = s.rxUnit := rfl
@[simp] theorem suspendHold_rxCommand (s : State) : (suspendHold s).rxCommand = s.rxCommand := rfl
@[simp] theorem suspendHold_rxStart (s : State) : (suspendHold s).rxStart = s.rxStart := rfl
@[simp] theorem suspendHold_mainState (s : State) : (suspendHold s).mainState = s.mainState := rfl
@[simp] theorem suspendHold_txField (s : State) : (suspendHold s).txField = s.txField := rfl
@[simp] theorem suspendHold_txBit (s : State) : (suspendHold s).txBit = s.txBit := rfl
@[simp] theorem suspendHold_txHalf (s : State) : (suspendHold s).txHalf = s.txHalf := rfl
@[simp] theorem suspendHold_txPhase (s : State) : (suspendHold s).txPhase = s.txPhase := rfl
@[simp] theorem suspendHold_edgeCount (s : State) : (suspendHold s).edgeCount = s.edgeCount := rfl
@[simp] theorem suspendHold_mainTimer (s : State) : (suspendHold s).mainTimer = s.mainTimer := rfl
@[simp] theorem suspendHold_rxPhase (s : State) : (suspendHold s).rxPhase = .hold := rfl
@[simp] theorem suspendHold_rxTimer (s : State) : (suspendHold s).rxTimer = holdTicks s := rfl
@[simp] theorem suspendHold_frameReadyFlag (s : State) : (suspendHold s).frameReadyFlag = s.frameReadyFlag := rfl
@[simp] theorem suspendHold_commandReady (s : State) : (suspendHold s).commandReady = s.commandReady := rfl
@[simp] theorem suspendHold_calibrated (s : State) : (suspendHold s).calibrated = s.calibrated := rfl
@[simp] theorem suspendHold_rxArmed (s : State) : (suspendHold s).rxArmed = s.rxArmed := rfl
@[simp] theorem suspendHold_profile (s : State) : (suspendHold s).profile = s.profile := rfl
@[simp] theorem suspendHold_bitCount (s : State) : (suspendHold s).bitCount = s.bitCount := rfl
@[simp] theorem suspendHold_zeroCrossCount (s : State) : (suspendHold s).zeroCrossCount = s.zeroCrossCount := rfl
@[simp] theorem suspendHold_bitMask (s : State) : (suspendHold s).bitMask = s.bitMask := rfl
@[simp] theorem suspendHold_accumulatorBuffer (s : State) : (suspendHold s).accumulatorBuffer = s.accumulatorBuffer := rfl
@[simp] theorem suspendHold_unitPending (s : State) : (suspendHold s).unitPending = s.unitPending := rfl
@[simp] theorem suspendHold_unitHousePat (s : State) : (suspendHold s).unitHousePat = s.unitHousePat := rfl
@[simp] theorem suspendHold_zcPrev (s : State) : (suspendHold s).zcPrev = s.zcPrev := rfl
@[simp] theorem suspendHold_zcPending (s : State) : (suspendHold s).zcPending = s.zcPending := rfl
@[simp] theorem suspendHold_txReg (s : State) : (suspendHold s).txReg = s.txReg := rfl
@[simp] theorem suspendHold_calElapsed (s : State) : (suspendHold s).calElapsed = s.calElapsed := rfl

/-! ### countRxTimer -/

@[simp] theorem countRxTimer_params (s : State) : (countRxTimer s).params = s.params := rfl
@[simp] theorem countRxTimer_tick (s : State) : (countRxTimer s).tick = s.tick := rfl
@[simp] theorem countRxTimer_inputs (s : State) : (countRxTimer s).inputs = s.inputs := rfl
@[simp] theorem countRxTimer_rspData (s : State) : (countRxTimer s).rspData = s.rspData := rfl
@[simp] theorem countRxTimer_rspHit (s : State) : (countRxTimer s).rspHit = s.rspHit := rfl
@[simp] theorem countRxTimer_txHousePat (s : State) : (countRxTimer s).txHousePat = s.txHousePat := rfl
@[simp] theorem countRxTimer_txPayload (s : State) : (countRxTimer s).txPayload = s.txPayload := rfl
@[simp] theorem countRxTimer_txRepeat (s : State) : (countRxTimer s).txRepeat = s.txRepeat := rfl
@[simp] theorem countRxTimer_rxHouse (s : State) : (countRxTimer s).rxHouse = s.rxHouse := rfl
@[simp] theorem countRxTimer_rxUnit (s : State) : (countRxTimer s).rxUnit = s.rxUnit := rfl
@[simp] theorem countRxTimer_rxCommand (s : State) : (countRxTimer s).rxCommand = s.rxCommand := rfl
@[simp] theorem countRxTimer_rxStart (s : State) : (countRxTimer s).rxStart = s.rxStart := rfl
@[simp] theorem countRxTimer_mainState (s : State) : (countRxTimer s).mainState = s.mainState := rfl
@[simp] theorem countRxTimer_txField (s : State) : (countRxTimer s).txField = s.txField := rfl
@[simp] theorem countRxTimer_txBit (s : State) : (countRxTimer s).txBit = s.txBit := rfl
@[simp] theorem countRxTimer_txHalf (s : State) : (countRxTimer s).txHalf = s.txHalf := rfl
@[simp] theorem countRxTimer_txPhase (s : State) : (countRxTimer s).txPhase = s.txPhase := rfl
@[simp] theorem countRxTimer_edgeCount (s : State) : (countRxTimer s).edgeCount = s.edgeCount := rfl
@[simp] theorem countRxTimer_mainTimer (s : State) : (countRxTimer s).mainTimer = s.mainTimer := rfl
@[simp] theorem countRxTimer_rxPhase (s : State) : (countRxTimer s).rxPhase = s.rxPhase := rfl
@[simp] theorem countRxTimer_rxTimer (s : State) : (countRxTimer s).rxTimer = s.rxTimer - 1 := rfl
@[simp] theorem countRxTimer_frameReadyFlag (s : State) : (countRxTimer s).frameReadyFlag = s.frameReadyFlag := rfl
@[simp] theorem countRxTimer_commandReady (s : State) : (countRxTimer s).commandReady = s.commandReady := rfl
@[simp] theorem countRxTimer_calibrated (s : State) : (countRxTimer s).calibrated = s.calibrated := rfl
@[simp] theorem countRxTimer_rxArmed (s : State) : (countRxTimer s).rxArmed = s.rxArmed := rfl
@[simp] theorem countRxTimer_profile (s : State) : (countRxTimer s).profile = s.profile := rfl
@[simp] theorem countRxTimer_bitCount (s : State) : (countRxTimer s).bitCount = s.bitCount := rfl
@[simp] theorem countRxTimer_zeroCrossCount (s : State) : (countRxTimer s).zeroCrossCount = s.zeroCrossCount := rfl
@[simp] theorem countRxTimer_bitMask (s : State) : (countRxTimer s).bitMask = s.bitMask := rfl
@[simp] theorem countRxTimer_accumulatorBuffer (s : State) : (countRxTimer s).accumulatorBuffer = s.accumulatorBuffer := rfl
@[simp] theorem countRxTimer_unitPending (s : State) : (countRxTimer s).unitPending = s.unitPending := rfl
@[simp] theorem countRxTimer_unitHousePat (s : State) : (countRxTimer s).unitHousePat = s.unitHousePat := rfl
@[simp] theorem countRxTimer_zcPrev (s : State) : (countRxTimer s).zcPrev = s.zcPrev := rfl
@[simp] theorem countRxTimer_zcPending (s : State) : (countRxTimer s).zcPending = s.zcPending := rfl
@[simp] theorem countRxTimer_txReg (s : State) : (countRxTimer s).txReg = s.txReg := rfl
@[simp] theorem countRxTimer_calElapsed (s : State) : (countRxTimer s).calElapsed = s.calElapsed := rfl

/-! ### detectStart -/

@[simp] theorem detectStart_params (s : State) : (detectStart s).params = s.params := rfl
@[simp] theorem detectStart_tick (s : State) : (detectStart s).tick = s.tick := rfl
@[simp] theorem detectStart_inputs (s : State) : (detectStart s).inputs = s.inputs := rfl
@[simp] theorem detectStart_rspData (s : State) : (detectStart s).rspData = s.rspData := rfl
@[simp] theorem detectStart_rspHit (s : State) : (detectStart s).rspHit = s.rspHit := rfl
@[simp] theorem detectStart_txHousePat (s : State) : (detectStart s).txHousePat = s.txHousePat := rfl
@[simp] theorem detectStart_txPayload (s : State) : (detectStart s).txPayload = s.txPayload := rfl
@[simp] theorem detectStart_txRepeat (s : State) : (detectStart s).txRepeat = s.txRepeat := rfl
@[simp] theorem detectStart_rxHouse (s : State) : (detectStart s).rxHouse = s.rxHouse := rfl
@[simp] theorem detectStart_rxUnit (s : State) : (detectStart s).rxUnit = s.rxUnit := rfl
@[simp] theorem detectStart_rxCommand (s : State) : (detectStart s).rxCommand = s.rxCommand := rfl
@[simp] theorem detectStart_rxStart (s : State) : (detectStart s).rxStart = s.rxStart := rfl
@[simp] theorem detectStart_mainState (s : State) : (detectStart s).mainState = s.mainState := rfl
@[simp] theorem detectStart_txField (s : State) : (detectStart s).txField = s.txField := rfl
@[simp] theorem detectStart_txBit (s : State) : (detectStart s).txBit = s.txBit := rfl
@[simp] theorem detectStart_txHalf (s : State) : (detectStart s).txHalf = s.txHalf := rfl
@[simp] theorem detectStart_txPhase (s : State) : (detectStart s).txPhase = s.txPhase := rfl
@[simp] theorem detectStart_edgeCount (s : State) : (detectStart s).edgeCount = s.edgeCount := rfl
@[simp] theorem detectStart_mainTimer (s : State) : (detectStart s).mainTimer = s.mainTimer := rfl
@[simp] theorem detectStart_rxPhase (s : State) : (detectStart s).rxPhase = s.rxPhase := rfl
@[simp] theorem detectStart_rxTimer (s : State) : (detectStart s).rxTimer = s.rxTimer := rfl
@[simp] theorem detectStart_frameReadyFlag (s : State) : (detectStart s).frameReadyFlag = s.frameReadyFlag := rfl
@[simp] theorem detectStart_commandReady (s : State) : (detectStart s).commandReady = s.commandReady := rfl
@[simp] theorem detectStart_calibrated (s : State) : (detectStart s).calibrated = s.calibrated := rfl
@[simp] theorem detectStart_rxArmed (s : State) : (detectStart s).rxArmed = s.rxArmed := rfl
@[simp] theorem detectStart_profile (s : State) : (detectStart s).profile = s.profile := rfl
@[simp] theorem detectStart_bitCount (s : State) : (detectStart s).bitCount = 1 := rfl
@[simp] theorem detectStart_zeroCrossCount (s : State) : (detectStart s).zeroCrossCount = 1 := rfl
@[simp] theorem detectStart_bitMask (s : State) : (detectStart s).bitMask = 0x0800 := rfl
@[simp] theorem detectStart_accumulatorBuffer (s : State) : (detectStart s).accumulatorBuffer = 0x1000 := rfl
@[simp] theorem detectStart_unitPending (s : State) : (detectStart s).unitPending = s.unitPending := rfl
@[simp] theorem detectStart_unitHousePat (s : State) : (detectStart s).unitHousePat = s.unitHousePat := rfl
@[simp] theorem detectStart_zcPrev (s : State) : (detectStart s).zcPrev = s.zcPrev := rfl
@[simp] theorem detectStart_zcPending (s : State) : (detectStart s).zcPending = s.zcPending := rfl
@[simp] theorem detectStart_txReg (s : State) : (detectStart s).txReg = s.txReg := rfl
@[simp] theorem detectStart_calElapsed (s : State) : (detectStart s).calElapsed = s.calElapsed := rfl

/-! ### storeBit -/

@[simp] theorem storeBit_params (rx : Bool) (s : State) : (storeBit rx s).params = s.params := rfl
@[simp] theorem storeBit_tick (rx : Bool) (s : State) : (storeBit rx s).tick = s.tick := rfl
@[simp] theorem storeBit_inputs (rx : Bool) (s : State) : (storeBit rx s).inputs = s.inputs := rfl
@[simp] theorem storeBit_rspData (rx : Bool) (s : State) : (storeBit rx s).rspData = s.rspData := rfl
@[simp] theorem storeBit_rspHit (rx : Bool) (s : State) : (storeBit rx s).rspHit = s.rspHit := rfl
@[simp] theorem storeBit_txHousePat (rx : Bool) (s : State) : (storeBit rx s).txHousePat = s.txHousePat := rfl
@[simp] theorem storeBit_txPayload (rx : Bool) (s : State) : (storeBit rx s).txPayload = s.txPayload := rfl
@[simp] theorem storeBit_txRepeat (rx : Bool) (s : State) : (storeBit rx s).txRepeat = s.txRepeat := rfl
@[simp] theorem storeBit_rxHouse (rx : Bool) (s : State) : (storeBit rx s).rxHouse = s.rxHouse := rfl
@[simp] theorem storeBit_rxUnit (rx : Bool) (s : State) : (storeBit rx s).rxUnit = s.rxUnit := rfl
@[simp] theorem storeBit_rxCommand (rx : Bool) (s : State) : (storeBit rx s).rxCommand = s.rxCommand := rfl
@[simp] theorem storeBit_rxStart (rx : Bool) (s : State) : (storeBit rx s).rxStart = s.rxStart := rfl
@[simp] theorem storeBit_mainState (rx : Bool) (s : State) : (storeBit rx s).mainState = s.mainState := rfl
@[simp] theorem storeBit_txField (rx : Bool) (s : State) : (storeBit rx s).txField = s.txField := rfl
@[simp] theorem storeBit_txBit (rx : Bool) (s : State) : (storeBit rx s).txBit = s.txBit := rfl
@[simp] theorem storeBit_txHalf (rx : Bool) (s : State) : (storeBit rx s).txHalf = s.txHalf := rfl
@[simp] theorem storeBit_txPhase (rx : Bool) (s : State) : (storeBit rx s).txPhase = s.txPhase := rfl
@[simp] theorem storeBit_edgeCount (rx : Bool) (s : State) : (storeBit rx s).edgeCount = s.edgeCount := rfl
@[simp] theorem storeBit_mainTimer (rx : Bool) (s : State) : (storeBit rx s).mainTimer = s.mainTimer := rfl
@[simp] theorem storeBit_rxPhase (rx : Bool) (s : State) : (storeBit rx s).rxPhase = s.rxPhase := rfl
@[simp] theorem storeBit_rxTimer (rx : Bool) (s : State) : (storeBit rx s).rxTimer = s.rxTimer := rfl
@[simp] theorem storeBit_frameReadyFlag (rx : Bool) (s : State) : (storeBit rx s).frameReadyFlag = s.frameReadyFlag := rfl
@[simp] theorem storeBit_commandReady (rx : Bool) (s : State) : (storeBit rx s).commandReady = s.commandReady := rfl
@[simp] theorem storeBit_calibrated (rx : Bool) (s : State) : (storeBit rx s).calibrated = s.calibrated := rfl
@[simp] theorem storeBit_rxArmed (rx : Bool) (s : State) : (storeBit rx s).rxArmed = s.rxArmed := rfl
@[simp] theorem storeBit_profile (rx : Bool) (s : State) : (storeBit rx s).profile = s.profile := rfl
@[simp] theorem storeBit_bitCount (rx : Bool) (s : State) : (storeBit rx s).bitCount = s.bitCount + 1 := rfl
@[simp] theorem storeBit_zeroCrossCount (rx : Bool) (s : State) : (storeBit rx s).zeroCrossCount = s.zeroCrossCount := rfl
@[simp] theorem storeBit_bitMask (rx : Bool) (s : State) : (storeBit rx s).bitMask = s.bitMask >>> 1 := rfl
@[simp] theorem storeBit_accumulatorBuffer (rx : Bool) (s : State) : (storeBit rx s).accumulatorBuffer = if rx then s.accumulatorBuffer else s.accumulatorBuffer ||| s.bitMask := rfl
@[simp] theorem storeBit_unitPending (rx : Bool) (s : State) : (storeBit rx s).unitPending = s.unitPending := rfl
@[simp] theorem storeBit_unitHousePat (rx : Bool) (s : State) : (storeBit rx s).unitHousePat = s.unitHousePat := rfl
@[simp] theorem storeBit_zcPrev (rx : Bool) (s : State) : (storeBit rx s).zcPrev = s.zcPrev := rfl
@[simp] theorem storeBit_zcPending (rx : Bool) (s : State) : (storeBit rx s).zcPending = s.zcPending := rfl
@[simp] theorem storeBit_txReg (rx : Bool) (s : State) : (storeBit rx s).txReg = s.txReg := rfl
@[simp] theorem storeBit_calElapsed (rx : Bool) (s : State) : (storeBit rx s).calElapsed = s.calElapsed := rfl

/-! ### pendingPhase -/

@[simp] theorem pendingPhase_params (edge blocking : Bool) (s0 : State) (s : State) : (pendingPhase edge blocking s0 s).params = s.params := rfl
@[simp] theorem pendingPhase_tick (edge blocking : Bool) (s0 : State) (s : State) : (pendingPhase edge blocking s0 s).tick = s.tick := rfl
@[simp] theorem pendingPhase_inputs (edge blocking : Bool) (s0 : State) (s : State) : (pendingPhase edge blocking s0 s).inputs = s.inputs := rfl
@[simp] theorem pendingPhase_rspData (edge blocking : Bool) (s0 : State) (s : State) : (pendingPhase edge blocking s0 s).rspData = s.rspData := rfl
@[simp] theorem pendingPhase_rspHit (edge blocking : Bool) (s0 : State) (s : State) : (pendingPhase edge blocking s0 s).rspHit = s.rspHit := rfl
@[simp] theorem pendingPhase_txHousePat (edge blocking : Bool) (s0 : State) (s : State) : (pendingPhase edge blocking s0 s).txHousePat = s.txHousePat := rfl
@[simp] theorem pendingPhase_txPayload (edge blocking : Bool) (s0 : State) (s : State) : (pendingPhase edge blocking s0 s).txPayload = s.txPayload := rfl
@[simp] theorem pendingPhase_txRepeat (edge blocking : Bool) (s0 : State) (s : State) : (pendingPhase edge blocking s0 s).txRepeat = s.txRepeat := rfl
@[simp] theorem pendingPhase_rxHouse (edge blocking : Bool) (s0 : State) (s : State) : (pendingPhase edge blocking s0 s).rxHouse = s.rxHouse := rfl
@[simp] theorem pendingPhase_rxUnit (edge blocking : Bool) (s0 : State) (s : State) : (pendingPhase edge blocking s0 s).rxUnit = s.rxUnit := rfl
@[simp] theorem pendingPhase_rxCommand (edge blocking : Bool) (s0 : State) (s : State) : (pendingPhase edge blocking s0 s).rxCommand = s.rxCommand := rfl
@[simp] theorem pendingPhase_rxStart (edge blocking : Bool) (s0 : State) (s : State) : (pendingPhase edge blocking s0 s).rxStart = s.rxStart := rfl
@[simp] theorem pendingPhase_mainState (edge blocking : Bool) (s0 : State) (s : State) : (pendingPhase edge blocking s0 s).mainState = s.mainState := rfl
@[simp] theorem pendingPhase_txField (edge blocking : Bool) (s0 : State) (s : State) : (pendingPhase edge blocking s0 s).txField = s.txField := rfl
@[simp] theorem pendingPhase_txBit (edge blocking : Bool) (s0 : State) (s : State) : (pendingPhase edge blocking s0 s).txBit = s.txBit := rfl
@[simp] theorem pendingPhase_txHalf (edge blocking : Bool) (s0 : State) (s : State) : (pendingPhase edge blocking s0 s).txHalf = s.txHalf := rfl
@[simp] theorem pendingPhase_txPhase (edge blocking : Bool) (s0 : State) (s : State) : (pendingPhase edge blocking s0 s).txPhase = s.txPhase := rfl
@[simp] theorem pendingPhase_edgeCount (edge blocking : Bool) (s0 : State) (s : State) : (pendingPhase edge blocking s0 s).edgeCount = s.edgeCount := rfl
@[simp] theorem pendingPhase_mainTimer (edge blocking : Bool) (s0 : State) (s : State) : (pendingPhase edge blocking s0 s).mainTimer = s.mainTimer := rfl
@[simp] theorem pendingPhase_rxPhase (edge blocking : Bool) (s0 : State) (s : State) : (pendingPhase edge blocking s0 s).rxPhase = s.rxPhase := rfl
@[simp] theorem pendingPhase_rxTimer (edge blocking : Bool) (s0 : State) (s : State) : (pendingPhase edge blocking s0 s).rxTimer = s.rxTimer := rfl
@[simp] theorem pendingPhase_frameReadyFlag (edge blocking : Bool) (s0 : State) (s : State) : (pendingPhase edge blocking s0 s).frameReadyFlag = s.frameReadyFlag := rfl
@[simp] theorem pendingPhase_commandReady (edge blocking : Bool) (s0 : State) (s : State) : (pendingPhase edge blocking s0 s).commandReady = s.commandReady := rfl
@[simp] theorem pendingPhase_calibrated (edge blocking : Bool) (s0 : State) (s : State) : (pendingPhase edge blocking s0 s).calibrated = s.calibrated := rfl
@[simp] theorem pendingPhase_rxArmed (edge blocking : Bool) (s0 : State) (s : State) : (pendingPhase edge blocking s0 s).rxArmed = s.rxArmed := rfl
@[simp] theorem pendingPhase_profile (edge blocking : Bool) (s0 : State) (s : State) : (pendingPhase edge blocking s0 s).profile = s.profile := rfl
@[simp] theorem pendingPhase_bitCount (edge blocking : Bool) (s0 : State) (s : State) : (pendingPhase edge blocking s0 s).bitCount = s.bitCount := rfl
@[simp] theorem pendingPhase_zeroCrossCount (edge blocking : Bool) (s0 : State) (s : State) : (pendingPhase edge blocking s0 s).zeroCrossCount = s.zeroCrossCount := rfl
@[simp] theorem pendingPhase_bitMask (edge blocking : Bool) (s0 : State) (s : State) : (pendingPhase edge blocking s0 s).bitMask = s.bitMask := rfl
@[simp] theorem pendingPhase_accumulatorBuffer (edge blocking : Bool) (s0 : State) (s : State) : (pendingPhase edge blocking s0 s).accumulatorBuffer = s.accumulatorBuffer := rfl
@[simp] theorem pendingPhase_unitPending (edge blocking : Bool) (s0 : State) (s : State) : (pendingPhase edge blocking s0 s).unitPending = s.unitPending := rfl
@[simp] theorem pendingPhase_unitHousePat (edge blocking : Bool) (s0 : State) (s : State) : (pendingPhase edge blocking s0 s).unitHousePat = s.unitHousePat := rfl
@[simp] theorem pendingPhase_zcPrev (edge blocking : Bool) (s0 : State) (s : State) : (pendingPhase edge blocking s0 s).zcPrev = s.zcPrev := rfl
@[simp] theorem pendingPhase_zcPending (edge blocking : Bool) (s0 : State) (s : State) : (pendingPhase edge blocking s0 s).zcPending = nextPending edge blocking s0 s.zcPending := rfl
@[simp] theorem pendingPhase_txReg (edge blocking : Bool) (s0 : State) (s : State) : (pendingPhase edge blocking s0 s).txReg = s.txReg := rfl
@[simp] theorem pendingPhase_calElapsed (edge blocking : Bool) (s0 : State) (s : State) : (pendingPhase edge blocking s0 s).calElapsed = s.calElapsed := rfl

end Sys2Proof.Machine
end

