-- ==== Sys2Proof/Laws/Handler.lean ====
section
/-! SUPPORT. What the receive handler can do: the frame words in one equation, the cases of a sample and of a run, and the
state no handler writes (10_state.md R45). -/

namespace Sys2Proof.Machine

open Sys2Proof Sys2Proof.Safety

/-- The fields the handler never writes are the same. -/
structure KeepsSequencer (s t : State) : Prop where
  params : t.params = s.params
  tick : t.tick = s.tick
  inputs : t.inputs = s.inputs
  rspData : t.rspData = s.rspData
  rspHit : t.rspHit = s.rspHit
  txHousePat : t.txHousePat = s.txHousePat
  txPayload : t.txPayload = s.txPayload
  txRepeat : t.txRepeat = s.txRepeat
  mainState : t.mainState = s.mainState
  txField : t.txField = s.txField
  txBit : t.txBit = s.txBit
  txHalf : t.txHalf = s.txHalf
  txPhase : t.txPhase = s.txPhase
  edgeCount : t.edgeCount = s.edgeCount
  mainTimer : t.mainTimer = s.mainTimer
  calibrated : t.calibrated = s.calibrated
  rxArmed : t.rxArmed = s.rxArmed
  profile : t.profile = s.profile
  zcPrev : t.zcPrev = s.zcPrev
  zcPending : t.zcPending = s.zcPending
  txReg : t.txReg = s.txReg
  calElapsed : t.calElapsed = s.calElapsed

theorem KeepsSequencer.rfl {s : State} : KeepsSequencer s s := by constructor <;> rfl

theorem KeepsSequencer.trans {s t u : State} (h : KeepsSequencer s t) (k : KeepsSequencer t u) :
    KeepsSequencer s u := by
  constructor
  · exact k.params.trans h.params
  · exact k.tick.trans h.tick
  · exact k.inputs.trans h.inputs
  · exact k.rspData.trans h.rspData
  · exact k.rspHit.trans h.rspHit
  · exact k.txHousePat.trans h.txHousePat
  · exact k.txPayload.trans h.txPayload
  · exact k.txRepeat.trans h.txRepeat
  · exact k.mainState.trans h.mainState
  · exact k.txField.trans h.txField
  · exact k.txBit.trans h.txBit
  · exact k.txHalf.trans h.txHalf
  · exact k.txPhase.trans h.txPhase
  · exact k.edgeCount.trans h.edgeCount
  · exact k.mainTimer.trans h.mainTimer
  · exact k.calibrated.trans h.calibrated
  · exact k.rxArmed.trans h.rxArmed
  · exact k.profile.trans h.profile
  · exact k.zcPrev.trans h.zcPrev
  · exact k.zcPending.trans h.zcPending
  · exact k.txReg.trans h.txReg
  · exact k.calElapsed.trans h.calElapsed

/-- The 32 meanings of the frame words are one shared operation. -/
theorem exec_frameInstr (start : BitVec 4) (house : HousePattern) (payload : PayloadPattern) (s : State) :
    exec (frameInstr start house payload) s = .next (frameReceived start house payload s) := by
  induction payload using payload_cases with
  | h k => fin_cases k <;> rfl

/-- The end of the hold always answers a next state. -/
theorem completeFrame_eq (s : State) :
    completeFrame s = .next (frameReceived (frameStart s.accumulatorBuffer) (frameHouse s.accumulatorBuffer)
      (framePayload s.accumulatorBuffer) s) :=
  exec_frameInstr _ _ _ s

section

variable (start : BitVec 4) (house : HousePattern) (payload : PayloadPattern) (s : State)

@[simp] theorem frameReceived_rxPhase : (frameReceived start house payload s).rxPhase = .idle := rfl

@[simp] theorem frameReceived_frameReadyFlag : (frameReceived start house payload s).frameReadyFlag = true := by
  unfold frameReceived parseFrame parseStrict parseStrictCommand parseStrictUnit parseBaseline parseCommand parseUnit
  dsimp only [returnHandler]
  repeat' split
  all_goals rfl

@[simp] theorem frameReceived_bitCount : (frameReceived start house payload s).bitCount = 0 := by
  unfold frameReceived parseFrame parseStrict parseStrictCommand parseStrictUnit parseBaseline parseCommand parseUnit
  dsimp only [returnHandler]
  repeat' split
  all_goals rfl

@[simp] theorem frameReceived_zeroCrossCount :
    (frameReceived start house payload s).zeroCrossCount = s.zeroCrossCount := by
  unfold frameReceived parseFrame parseStrict parseStrictCommand parseStrictUnit parseBaseline parseCommand parseUnit
  dsimp only [returnHandler]
  repeat' split
  all_goals rfl

@[simp] theorem frameReceived_bitMask : (frameReceived start house payload s).bitMask = s.bitMask := by
  unfold frameReceived parseFrame parseStrict parseStrictCommand parseStrictUnit parseBaseline parseCommand parseUnit
  dsimp only [returnHandler]
  repeat' split
  all_goals rfl

@[simp] theorem frameReceived_accumulatorBuffer :
    (frameReceived start house payload s).accumulatorBuffer = s.accumulatorBuffer := by
  unfold frameReceived parseFrame parseStrict parseStrictCommand parseStrictUnit parseBaseline parseCommand parseUnit
  dsimp only [returnHandler]
  repeat' split
  all_goals rfl

@[simp] theorem frameReceived_rxTimer : (frameReceived start house payload s).rxTimer = s.rxTimer := by
  unfold frameReceived parseFrame parseStrict parseStrictCommand parseStrictUnit parseBaseline parseCommand parseUnit
  dsimp only [returnHandler]
  repeat' split
  all_goals rfl

/-- Both parsers copy the start nibble (43_receiver.md R193, R194). -/
@[simp] theorem frameReceived_rxStart : (frameReceived start house payload s).rxStart = start := by
  unfold frameReceived parseFrame parseStrict parseStrictCommand parseStrictUnit parseBaseline parseCommand parseUnit
  dsimp only [returnHandler]
  repeat' split
  all_goals rfl

/-- A frame word writes nothing of the sequencer. -/
theorem frameReceived_keeps : KeepsSequencer s (frameReceived start house payload s) := by
  unfold frameReceived parseFrame parseStrict parseStrictCommand parseStrictUnit parseBaseline parseCommand parseUnit
  dsimp only [returnHandler]
  repeat' split
  all_goals (constructor <;> rfl)

end

/-- The frame word the accumulator holds, and the handler's return. -/
def frameDone (s : State) : State :=
  frameReceived (frameStart s.accumulatorBuffer) (frameHouse s.accumulatorBuffer) (framePayload s.accumulatorBuffer) s

/-- The four things a sample can do. -/
theorem sampleLine_cases {rx : Bool} {s t : State} (h : sampleLine rx s = .next t) :
    (s.bitCount = 0 ∧ rx = true ∧ t = returnHandler s) ∨
    (s.bitCount = 0 ∧ rx = false ∧ t = returnHandler (detectStart s)) ∨
    (s.bitCount ≠ 0 ∧ s.bitCount + 1 = 13 ∧ holdTicks s = 0 ∧ t = frameDone (storeBit rx s)) ∨
    (s.bitCount ≠ 0 ∧ s.bitCount + 1 = 13 ∧ holdTicks s ≠ 0 ∧ t = suspendHold (storeBit rx s)) ∨
    (s.bitCount ≠ 0 ∧ s.bitCount + 1 ≠ 13 ∧ t = returnHandler (storeBit rx s)) := by
  unfold sampleLine at h
  split at h
  · rename_i h0
    cases rx
    · exact .inr (.inl ⟨h0, rfl, by simpa using h.symm⟩)
    · exact .inl ⟨h0, rfl, by simpa using h.symm⟩
  · rename_i h0
    split at h
    · rename_i h13
      unfold startHold at h
      split at h
      · rename_i hz
        rw [completeFrame_eq] at h
        exact .inr (.inr (.inl ⟨h0, h13, hz, by cases h; rfl⟩))
      · rename_i hz
        exact .inr (.inr (.inr (.inl ⟨h0, h13, hz, by cases h; rfl⟩)))
    · rename_i h13
      exact .inr (.inr (.inr (.inr ⟨h0, h13, by cases h; rfl⟩)))

/-- A sample always answers a next state. -/
theorem sampleLine_next (rx : Bool) (s : State) : ∃ t, sampleLine rx s = .next t := by
  unfold sampleLine startHold
  simp only [completeFrame_eq]
  repeat' split
  all_goals exact ⟨_, rfl⟩

theorem sampleLine_keeps {rx : Bool} {s t : State} (h : sampleLine rx s = .next t) : KeepsSequencer s t := by
  obtain ⟨-, -, rfl⟩ | ⟨-, -, rfl⟩ | ⟨-, -, -, rfl⟩ | ⟨-, -, -, rfl⟩ | ⟨-, -, rfl⟩ := sampleLine_cases h
  · constructor <;> rfl
  · constructor <;> rfl
  · exact KeepsSequencer.trans (t := storeBit rx s) (by constructor <;> rfl) (frameReceived_keeps _ _ _ _)
  · constructor <;> rfl
  · constructor <;> rfl

/-- What entry does, in both of its cases. -/
theorem enterHandler_cases (s : State) :
    (s.bitCount = 0 ∧ enterHandler s = s) ∨
    (s.bitCount ≠ 0 ∧ enterHandler s = { s with zeroCrossCount := s.zeroCrossCount + 1 }) := by
  unfold enterHandler
  by_cases h : s.bitCount = 0
  · exact .inl ⟨h, by rw [if_pos h]⟩
  · exact .inr ⟨h, by rw [if_neg h]⟩

theorem enterHandler_keeps (s : State) : KeepsSequencer s (enterHandler s) := by
  obtain ⟨-, h⟩ | ⟨-, h⟩ := enterHandler_cases s <;> rw [h] <;> constructor <;> rfl

/-- The three things the start of the handler can do. -/
theorem startHandler_cases {rx : Bool} {s t : State} (h : startHandler rx s = .next t) :
    let entered := enterHandler s
    ((s.bitCount = 0 ∨ samplesNow s.bitCount entered.zeroCrossCount = true) ∧ s.profile.offsetDelayUs = 0 ∧
      sampleLine rx entered = .next t) ∨
    ((s.bitCount = 0 ∨ samplesNow s.bitCount entered.zeroCrossCount = true) ∧ s.profile.offsetDelayUs ≠ 0 ∧
      t = suspendOffset entered) ∨
    (s.bitCount ≠ 0 ∧ samplesNow s.bitCount entered.zeroCrossCount = false ∧ t = returnHandler entered) := by
  intro entered
  have hp : entered.profile = s.profile := (enterHandler_keeps s).profile
  unfold startHandler awaitSample at h
  split at h
  · rename_i hs
    have hs' : s.bitCount = 0 ∨ samplesNow s.bitCount entered.zeroCrossCount = true := by simpa using hs
    split at h
    · rename_i ho
      exact .inl ⟨hs', by rw [← hp]; exact ho, h⟩
    · rename_i ho
      exact .inr (.inl ⟨hs', by rw [← hp]; exact ho, by cases h; rfl⟩)
  · rename_i hs
    simp only [Bool.or_eq_true, decide_eq_true_eq, not_or, Bool.not_eq_true] at hs
    exact .inr (.inr ⟨hs.1, hs.2, by cases h; rfl⟩)

theorem startHandler_next (rx : Bool) (s : State) : ∃ t, startHandler rx s = .next t := by
  unfold startHandler awaitSample
  repeat' split
  · exact sampleLine_next _ _
  · exact ⟨_, rfl⟩
  · exact ⟨_, rfl⟩

theorem startHandler_keeps {rx : Bool} {s t : State} (h : startHandler rx s = .next t) : KeepsSequencer s t := by
  obtain ⟨-, -, h⟩ | ⟨-, -, rfl⟩ | ⟨-, -, rfl⟩ := startHandler_cases h
  · exact (enterHandler_keeps s).trans (sampleLine_keeps h)
  · exact (enterHandler_keeps s).trans (by constructor <;> rfl)
  · exact (enterHandler_keeps s).trans (by constructor <;> rfl)

/-- The four things a tick of a suspended handler can do. -/
theorem continueHandler_cases {rx : Bool} {s t : State} (h : continueHandler rx s = .next t) :
    (timerExpires s.rxTimer = false ∧ t = countRxTimer s) ∨
    (timerExpires s.rxTimer = true ∧ s.rxPhase = .idle ∧ t = s) ∨
    (timerExpires s.rxTimer = true ∧ s.rxPhase = .offset ∧ sampleLine rx { s with rxTimer := 0 } = .next t) ∨
    (timerExpires s.rxTimer = true ∧ s.rxPhase = .hold ∧ t = frameDone { s with rxTimer := 0 }) := by
  unfold continueHandler at h
  by_cases he : timerExpires s.rxTimer = true
  · rw [if_pos he] at h
    cases hp : s.rxPhase <;> simp only [hp] at h
    · exact .inr (.inl ⟨he, rfl, by cases h; rfl⟩)
    · exact .inr (.inr (.inl ⟨he, rfl, h⟩))
    · rw [completeFrame_eq] at h
      exact .inr (.inr (.inr ⟨he, rfl, by cases h; rfl⟩))
  · rw [if_neg he] at h
    exact .inl ⟨by simpa using he, by cases h; rfl⟩

theorem continueHandler_next (rx : Bool) (s : State) : ∃ t, continueHandler rx s = .next t := by
  unfold continueHandler
  split
  · cases s.rxPhase
    · exact ⟨_, rfl⟩
    · exact sampleLine_next _ _
    · exact ⟨_, completeFrame_eq _⟩
  · exact ⟨_, rfl⟩

theorem continueHandler_keeps {rx : Bool} {s t : State} (h : continueHandler rx s = .next t) : KeepsSequencer s t := by
  obtain ⟨-, rfl⟩ | ⟨-, -, rfl⟩ | ⟨-, -, h⟩ | ⟨-, -, rfl⟩ := continueHandler_cases h
  · constructor <;> rfl
  · exact .rfl
  · exact KeepsSequencer.trans (t := { s with rxTimer := 0 }) (by constructor <;> rfl) (sampleLine_keeps h)
  · exact KeepsSequencer.trans (t := { s with rxTimer := 0 }) (by constructor <;> rfl) (frameReceived_keeps _ _ _ _)

end Sys2Proof.Machine
end

