-- ==== Sys2Proof/Laws/Sequencer.lean ====
section
/-! SUPPORT. What the main sequencer can do: the state it never writes (10_state.md R45), and the cases of a tick of a
pulse, of a gap, of a guard and of calibration. -/

namespace Sys2Proof.Machine

open Sys2Proof Sys2Proof.Safety

/-- The fields the sequencer never writes are the same. -/
structure KeepsReceiver (s t : State) : Prop where
  params : t.params = s.params
  tick : t.tick = s.tick
  inputs : t.inputs = s.inputs
  rspData : t.rspData = s.rspData
  rspHit : t.rspHit = s.rspHit
  rxHouse : t.rxHouse = s.rxHouse
  rxUnit : t.rxUnit = s.rxUnit
  rxCommand : t.rxCommand = s.rxCommand
  rxStart : t.rxStart = s.rxStart
  rxPhase : t.rxPhase = s.rxPhase
  rxTimer : t.rxTimer = s.rxTimer
  frameReadyFlag : t.frameReadyFlag = s.frameReadyFlag
  commandReady : t.commandReady = s.commandReady
  bitCount : t.bitCount = s.bitCount
  zeroCrossCount : t.zeroCrossCount = s.zeroCrossCount
  bitMask : t.bitMask = s.bitMask
  accumulatorBuffer : t.accumulatorBuffer = s.accumulatorBuffer
  unitPending : t.unitPending = s.unitPending
  unitHousePat : t.unitHousePat = s.unitHousePat
  zcPrev : t.zcPrev = s.zcPrev
  zcPending : t.zcPending = s.zcPending

theorem KeepsReceiver.rfl {s : State} : KeepsReceiver s s := by constructor <;> rfl

theorem KeepsReceiver.trans {s t u : State} (h : KeepsReceiver s t) (k : KeepsReceiver t u) : KeepsReceiver s u := by
  constructor
  · exact k.params.trans h.params
  · exact k.tick.trans h.tick
  · exact k.inputs.trans h.inputs
  · exact k.rspData.trans h.rspData
  · exact k.rspHit.trans h.rspHit
  · exact k.rxHouse.trans h.rxHouse
  · exact k.rxUnit.trans h.rxUnit
  · exact k.rxCommand.trans h.rxCommand
  · exact k.rxStart.trans h.rxStart
  · exact k.rxPhase.trans h.rxPhase
  · exact k.rxTimer.trans h.rxTimer
  · exact k.frameReadyFlag.trans h.frameReadyFlag
  · exact k.commandReady.trans h.commandReady
  · exact k.bitCount.trans h.bitCount
  · exact k.zeroCrossCount.trans h.zeroCrossCount
  · exact k.bitMask.trans h.bitMask
  · exact k.accumulatorBuffer.trans h.accumulatorBuffer
  · exact k.unitPending.trans h.unitPending
  · exact k.unitHousePat.trans h.unitHousePat
  · exact k.zcPrev.trans h.zcPrev
  · exact k.zcPending.trans h.zcPending

theorem endRepetitions_keeps (s : State) : KeepsReceiver s (endRepetitions s) := by
  unfold endRepetitions rearm
  split <;> constructor <;> rfl

theorem nextRepetition_keeps (s : State) : KeepsReceiver s (nextRepetition s) := by
  unfold nextRepetition
  split
  · exact endRepetitions_keeps s
  · constructor <;> rfl

theorem advanceBit_keeps (s : State) : KeepsReceiver s (advanceBit s) := by
  unfold advanceBit
  repeat' split
  · constructor <;> rfl
  · constructor <;> rfl
  · exact KeepsReceiver.trans (t := { s with txHalf := .plain, txRepeat := s.txRepeat - 1 }) (by constructor <;> rfl)
      (nextRepetition_keeps _)
  · constructor <;> rfl

theorem advanceSlot_keeps (s : State) : KeepsReceiver s (advanceSlot s) := by
  unfold advanceSlot
  split
  · exact advanceBit_keeps s
  · exact advanceBit_keeps s
  · constructor <;> rfl

theorem endSlot_keeps (s : State) : KeepsReceiver s (endSlot s) :=
  KeepsReceiver.trans (t := { s with txReg := false }) (by constructor <;> rfl) (advanceSlot_keeps _)

theorem startPulse_keeps {phase : Fin 3} {after : State → State} (h : ∀ t, KeepsReceiver t (after t)) (s : State) :
    KeepsReceiver s (startPulse phase after s) := by
  unfold startPulse
  dsimp only
  split
  · exact KeepsReceiver.trans
      (t := { s with txReg := slotBit s, txPhase := phase, mainTimer := s.profile.bitLengthUs })
      (by constructor <;> rfl) (h _)
  · constructor <;> rfl

theorem startGap_keeps {after : State → State} (h : ∀ t, KeepsReceiver t (after t)) (s : State) :
    KeepsReceiver s (startGap after s) := by
  unfold startGap
  dsimp only
  split
  · exact KeepsReceiver.trans (t := { s with txReg := false, mainTimer := s.profile.bitDelayUs })
      (by constructor <;> rfl) (h _)
  · constructor <;> rfl

theorem emitThird_keeps (s : State) : KeepsReceiver s (emitThird s) := startPulse_keeps endSlot_keeps s

theorem emitSecond_keeps (s : State) : KeepsReceiver s (emitSecond s) :=
  startPulse_keeps (startGap_keeps emitThird_keeps) s

theorem emitSlot_keeps (s : State) : KeepsReceiver s (emitSlot s) :=
  startPulse_keeps (startGap_keeps emitSecond_keeps) s

theorem pulseEnds_keeps (s : State) : KeepsReceiver s (pulseEnds s) := by
  unfold pulseEnds
  split
  · exact startGap_keeps emitSecond_keeps s
  · exact startGap_keeps emitThird_keeps s
  · exact endSlot_keeps s

theorem gapEnds_keeps (s : State) : KeepsReceiver s (gapEnds s) := by
  unfold gapEnds
  split
  · exact emitSecond_keeps s
  · exact emitThird_keeps s
  · exact emitThird_keeps s

theorem mainDelayTick_keeps {after : State → State} (h : ∀ t, KeepsReceiver t (after t)) (s : State) :
    KeepsReceiver s (mainDelayTick after s) := by
  unfold mainDelayTick
  split
  · exact KeepsReceiver.trans (t := { s with mainTimer := 0 }) (by constructor <;> rfl) (h _)
  · constructor <;> rfl

theorem calCountTick_keeps (edge : Bool) (s : State) : KeepsReceiver s (calCountTick edge s) := by
  unfold calCountTick calCountEdge finishCalibrate countElapsed rearm
  repeat' split
  all_goals constructor <;> rfl

theorem guardEdge_keeps (s : State) : KeepsReceiver s (guardEdge s) := by
  unfold guardEdge rearm
  split <;> constructor <;> rfl

/-- A tick of the sequencer writes nothing of the receiver. -/
theorem sequencerTick_keeps (edge : Bool) (s : State) : KeepsReceiver s (sequencerTick edge s) := by
  unfold sequencerTick
  split
  · exact .rfl
  · split
    · constructor <;> rfl
    · exact .rfl
  · exact calCountTick_keeps edge s
  · split
    · exact emitSlot_keeps s
    · exact .rfl
  · exact mainDelayTick_keeps pulseEnds_keeps s
  · exact mainDelayTick_keeps gapEnds_keeps s
  · split
    · exact guardEdge_keeps s
    · exact .rfl

end Sys2Proof.Machine
end

