-- ==== Sys2Proof/Laws/Step.lean ====
section
/-! SUPPORT. What one tick can do: a reset, or the phases one after the other. -/

namespace Sys2Proof.Machine

open Sys2Proof Sys2Proof.Safety

theorem andThen_next {o : Out} {f : State → Out} {t : State} (h : andThen o f = .next t) :
    ∃ s, o = .next s ∧ f s = .next t := by
  cases o with
  | next s => exact ⟨s, rfl, h⟩
  | fault r => cases h
  | refused r => cases h

theorem step_reset {s : State} (h : (currentInputs s).rst = true) :
    step s = .next (resetTick (currentInputs s) s) := by
  simp [step, tickWith, h]

theorem mainPhase_keeps (edge : Bool) (s now : State) : KeepsReceiver now (mainPhase edge s now) := by
  unfold mainPhase
  split
  · exact .rfl
  · exact sequencerTick_keeps edge now

theorem handlerPhase_next (inp : Inputs) (edge blocking : Bool) (s now : State) :
    ∃ t, handlerPhase inp edge blocking s now = .next t := by
  unfold handlerPhase
  split
  · exact startHandler_next _ _
  · split
    · exact ⟨_, rfl⟩
    · exact continueHandler_next _ _

/-- The three things the handler's part of a tick can be. -/
theorem handlerPhase_cases {inp : Inputs} {edge blocking : Bool} {s now t : State}
    (h : handlerPhase inp edge blocking s now = .next t) :
    (handlerStarts edge blocking s = true ∧ startHandler inp.rxIn now = .next t) ∨
    (handlerStarts edge blocking s = false ∧ s.rxPhase = .idle ∧ t = now) ∨
    (handlerStarts edge blocking s = false ∧ s.rxPhase ≠ .idle ∧ continueHandler inp.rxIn now = .next t) := by
  unfold handlerPhase at h
  split at h
  · rename_i hs
    exact .inl ⟨hs, h⟩
  · rename_i hs
    split at h
    · rename_i hp
      exact .inr (.inl ⟨by simpa using hs, hp, by cases h; rfl⟩)
    · rename_i hp
      exact .inr (.inr ⟨by simpa using hs, hp, h⟩)

theorem handlerPhase_keeps {inp : Inputs} {edge blocking : Bool} {s now t : State}
    (h : handlerPhase inp edge blocking s now = .next t) : KeepsSequencer now t := by
  obtain ⟨-, h⟩ | ⟨-, -, rfl⟩ | ⟨-, -, h⟩ := handlerPhase_cases h
  · exact startHandler_keeps h
  · exact .rfl
  · exact continueHandler_keeps h

/-- Either no word is accepted, or one is and it runs. -/
theorem hostPhase_cases {inp : Inputs} {s now t : State} (h : hostPhase inp s now = .next t) :
    (accepts inp s = false ∧ t = now) ∨
    (accepts inp s = true ∧ ∃ i, decodeCommand inp.opWord = .ok i ∧ exec i now = .next t) := by
  unfold hostPhase at h
  split at h
  · rename_i ha
    cases hd : decodeCommand inp.opWord with
    | ok i => rw [hd] at h; exact .inr ⟨ha, i, rfl, h⟩
    | error e => rw [hd] at h; cases h
  · rename_i ha
    exact .inl ⟨by simpa using ha, by cases h; rfl⟩

/-- What a step can do. -/
theorem step_cases {s t : State} (h : step s = .next t) :
    ((currentInputs s).rst = true ∧ t = resetTick (currentInputs s) s) ∨
    ((currentInputs s).rst = false ∧ ∃ hosted handled,
      hostPhase (currentInputs s) s (beginTick (currentInputs s) s) = .next hosted ∧
      handlerPhase (currentInputs s) (edgeNow (currentInputs s) s) (blockingAccepted (currentInputs s) s) s
        (mainPhase (edgeNow (currentInputs s) s) s hosted) = .next handled ∧
      t = pendingPhase (edgeNow (currentInputs s) s) (blockingAccepted (currentInputs s) s) s handled) := by
  cases hr : (currentInputs s).rst with
  | true =>
    rw [step_reset hr] at h
    exact .inl ⟨rfl, by cases h; rfl⟩
  | false =>
    simp only [step, tickWith, hr, Bool.false_eq_true, if_false] at h
    obtain ⟨hosted, hh, h⟩ := andThen_next h
    obtain ⟨handled, hn, h⟩ := andThen_next h
    exact .inr ⟨rfl, hosted, handled, hh, hn, by cases h; rfl⟩

/-- Where no word is accepted, a tick without reset is the sequencer's part, the handler's part and the pending latch. -/
theorem step_quiet {s : State} (hr : (currentInputs s).rst = false) (ha : accepts (currentInputs s) s = false) :
    step s = andThen
      (handlerPhase (currentInputs s) (edgeNow (currentInputs s) s) false s
        (mainPhase (edgeNow (currentInputs s) s) s (beginTick (currentInputs s) s)))
      fun handled => .next (pendingPhase (edgeNow (currentInputs s) s) false s handled) := by
  simp [step, tickWith, hr, hostPhase, blockingAccepted, ha, andThen]

end Sys2Proof.Machine
end

