-- ==== Sys2Proof/Laws/Host.lean ====
section
/-! SUPPORT. What a word accepted at the command port can do to the state, and the conditions of a tick as the claims say
them. -/

namespace Sys2Proof.Machine

open Sys2Proof Sys2Proof.Safety

/-! ### The conditions of a tick -/

theorem accepts_iff (s : State) : accepts (currentInputs s) s = true ↔ acceptsNow s := by
  unfold accepts acceptsNow opReady
  cases s.mainState <;> cases s.rxPhase <;> simp

theorem edgeNow_iff (s : State) : edgeNow (currentInputs s) s = true ↔ edgeAt s := by
  unfold edgeNow edgeAt
  simp

theorem opCode_cases (code : BitVec 4) :
    code = 0 ∨ code = 1 ∨ code = 2 ∨ code = 3 ∨ code = 4 ∨ code = 5 ∨ code = 6 ∨ code = 7 ∨ code = 8 ∨ code = 9 ∨
      code = 10 ∨ code = 11 ∨ code = 12 ∨ code = 13 ∨ code = 14 ∨ code = 15 := by
  revert code
  decide

/-- The word with each op code, or none. -/
theorem decodeCommand_cases (w : CommandWord) :
    ((opCode w = 0 ∨ opCode w = 15) ∧ decodeCommand w = .error (.reservedOpCode (opCode w))) ∨
    (opCode w = 1 ∧ decodeCommand w = .ok .calibrate) ∨
    (opCode w = 2 ∧ decodeCommand w = .ok (.transmit (opHouse w) (opPayload w) (opRepeat w))) ∨
    (opCode w = 3 ∧ decodeCommand w = .ok .isCommandReady) ∨
    (opCode w = 4 ∧ decodeCommand w = .ok .clearCommandReady) ∨
    (opCode w = 5 ∧ decodeCommand w = .ok .getHouse) ∨
    (opCode w = 6 ∧ decodeCommand w = .ok .getUnit) ∨
    (opCode w = 7 ∧ decodeCommand w = .ok .getCommand) ∨
    (opCode w = 8 ∧ decodeCommand w = .ok (.dumpTiming (opSelect w))) ∨
    (opCode w = 9 ∧ decodeCommand w = .ok (.houseToPattern (opHouse w))) ∨
    (opCode w = 10 ∧ decodeCommand w = .ok (.patternToHouse (opHouse w))) ∨
    (opCode w = 11 ∧ decodeCommand w = .ok (.unitToPattern (opPayload w))) ∨
    (opCode w = 12 ∧ decodeCommand w = .ok (.patternToUnit (opPayload w))) ∨
    (opCode w = 13 ∧ decodeCommand w = .ok .getStart) ∨
    (opCode w = 14 ∧ decodeCommand w = .ok .isFrameReady) := by
  unfold decodeCommand
  generalize opCode w = code
  obtain rfl | rfl | rfl | rfl | rfl | rfl | rfl | rfl | rfl | rfl | rfl | rfl | rfl | rfl | rfl | rfl :=
    opCode_cases code <;> simp

theorem blockingAccepted_iff (s : State) : blockingAccepted (currentInputs s) s = true ↔ blockingNow s := by
  unfold blockingAccepted blockingNow
  rw [Bool.and_eq_true, accepts_iff]
  refine and_congr_right fun _ => ?_
  show _ ↔ opCode (currentInputs s).opWord = 1#4 ∨ opCode (currentInputs s).opWord = 2#4
  obtain ⟨h | h, hd⟩ | ⟨h, hd⟩ | ⟨h, hd⟩ | ⟨h, hd⟩ | ⟨h, hd⟩ | ⟨h, hd⟩ | ⟨h, hd⟩ | ⟨h, hd⟩ | ⟨h, hd⟩ | ⟨h, hd⟩ |
    ⟨h, hd⟩ | ⟨h, hd⟩ | ⟨h, hd⟩ | ⟨h, hd⟩ | ⟨h, hd⟩ := decodeCommand_cases (currentInputs s).opWord <;>
  simp [h, hd, isBlocking]

theorem handlerStarts_iff (s : State) :
    handlerStarts (edgeNow (currentInputs s) s) (blockingAccepted (currentInputs s) s) s = true ↔ startsNow s := by
  unfold handlerStarts startsNow
  rw [← edgeNow_iff, ← blockingAccepted_iff]
  simp [and_assoc]

/-- The count is odd exactly when its bit 0 is set. -/
theorem countOdd_iff (count : BitVec 5) : (count + 1).getLsbD 0 = true ↔ (count.toNat + 1) % 2 = 1 := by
  revert count
  decide

/-- The crossing is sampled, as the handler tests it and as the claims say it. -/
theorem samplesCrossing_iff (s : State) :
    s.bitCount = 0 ∨ samplesNow s.bitCount (enterHandler s).zeroCrossCount = true ↔ samplesCrossing s := by
  unfold samplesCrossing
  obtain ⟨h, -⟩ | ⟨h, he⟩ := enterHandler_cases s
  · simp [h]
  · rw [he, ← countOdd_iff]
    simp [samplesNow, BitVec.lt_def]

/-! ### What an operation leaves as it is -/

/-- The fields no operation of the host writes are the same. -/
structure KeepsRest (s t : State) : Prop where
  params : t.params = s.params
  tick : t.tick = s.tick
  inputs : t.inputs = s.inputs
  rxHouse : t.rxHouse = s.rxHouse
  rxUnit : t.rxUnit = s.rxUnit
  rxCommand : t.rxCommand = s.rxCommand
  rxStart : t.rxStart = s.rxStart
  txPhase : t.txPhase = s.txPhase
  mainTimer : t.mainTimer = s.mainTimer
  rxPhase : t.rxPhase = s.rxPhase
  rxTimer : t.rxTimer = s.rxTimer
  calibrated : t.calibrated = s.calibrated
  profile : t.profile = s.profile
  bitCount : t.bitCount = s.bitCount
  zeroCrossCount : t.zeroCrossCount = s.zeroCrossCount
  bitMask : t.bitMask = s.bitMask
  accumulatorBuffer : t.accumulatorBuffer = s.accumulatorBuffer
  unitPending : t.unitPending = s.unitPending
  unitHousePat : t.unitHousePat = s.unitHousePat
  zcPrev : t.zcPrev = s.zcPrev
  txReg : t.txReg = s.txReg
  calElapsed : t.calElapsed = s.calElapsed

/-- The fields only a blocking operation writes are the same. -/
structure KeepsMain (s t : State) : Prop where
  txHousePat : t.txHousePat = s.txHousePat
  txPayload : t.txPayload = s.txPayload
  txRepeat : t.txRepeat = s.txRepeat
  mainState : t.mainState = s.mainState
  txField : t.txField = s.txField
  txBit : t.txBit = s.txBit
  txHalf : t.txHalf = s.txHalf
  edgeCount : t.edgeCount = s.edgeCount
  rxArmed : t.rxArmed = s.rxArmed
  zcPending : t.zcPending = s.zcPending

theorem KeepsRest.rfl {s : State} : KeepsRest s s := by constructor <;> rfl

theorem KeepsMain.rfl {s : State} : KeepsMain s s := by constructor <;> rfl

theorem nextRepetition_keepsRest (s : State) : KeepsRest s (nextRepetition s) := by
  unfold nextRepetition endRepetitions rearm startRepetition
  repeat' split
  all_goals (constructor <;> rfl)

/-- What the operation of an accepted word can do. -/
theorem command_keeps {w : CommandWord} {i : Instr} {s t : State} (hd : decodeCommand w = .ok i)
    (h : exec i s = .next t) :
    KeepsRest s t ∧ (isBlocking i = false → KeepsMain s t) ∧ (isBlocking i = true → t.zcPending = false) ∧
      (opCode w ≠ 4 → t.frameReadyFlag = s.frameReadyFlag ∧ t.commandReady = s.commandReady) ∧
      (opCode w = 4 → t.frameReadyFlag = false ∧ t.commandReady = false) := by
  obtain ⟨-, e⟩ | ⟨hc, e⟩ | ⟨hc, e⟩ | ⟨hc, e⟩ | ⟨hc, e⟩ | ⟨hc, e⟩ | ⟨hc, e⟩ | ⟨hc, e⟩ | ⟨hc, e⟩ | ⟨hc, e⟩ |
    ⟨hc, e⟩ | ⟨hc, e⟩ | ⟨hc, e⟩ | ⟨hc, e⟩ | ⟨hc, e⟩ := decodeCommand_cases w <;> rw [e] at hd <;> cases hd
  case inr.inr.inl =>
    simp only [exec, execTransmit] at h
    split at h <;> cases h
    have k := nextRepetition_keeps (latchOperands (opHouse w) (opPayload w) (opRepeat w) (disarm (respond true 0 s)))
    have r := nextRepetition_keepsRest
      (latchOperands (opHouse w) (opPayload w) (opRepeat w) (disarm (respond true 0 s)))
    refine ⟨?_, fun hb => Bool.noConfusion hb, fun _ => k.zcPending, fun _ => ⟨k.frameReadyFlag, k.commandReady⟩, ?_⟩
    · constructor
      · exact r.params
      · exact r.tick
      · exact r.inputs
      · exact r.rxHouse
      · exact r.rxUnit
      · exact r.rxCommand
      · exact r.rxStart
      · exact r.txPhase
      · exact r.mainTimer
      · exact r.rxPhase
      · exact r.rxTimer
      · exact r.calibrated
      · exact r.profile
      · exact r.bitCount
      · exact r.zeroCrossCount
      · exact r.bitMask
      · exact r.accumulatorBuffer
      · exact r.unitPending
      · exact r.unitHousePat
      · exact r.zcPrev
      · exact r.txReg
      · exact r.calElapsed
    · intro h4
      rw [hc] at h4
      exact absurd h4 (by decide)
  case inr.inr.inr.inr.inr.inr.inr.inr.inl =>
    simp only [exec, execDumpTiming] at h
    split at h <;> cases h
    exact ⟨by constructor <;> rfl, fun _ => by constructor <;> rfl, fun hb => Bool.noConfusion hb, fun _ => ⟨rfl, rfl⟩,
      fun h4 => absurd (hc.symm.trans h4) (by decide)⟩
  case inr.inr.inr.inr.inl =>
    cases h
    exact ⟨by constructor <;> rfl, fun _ => by constructor <;> rfl, fun hb => Bool.noConfusion hb, fun h4 => absurd hc h4,
      fun _ => ⟨rfl, rfl⟩⟩
  case inr.inl =>
    cases h
    exact ⟨by constructor <;> rfl, fun hb => Bool.noConfusion hb, fun _ => rfl, fun _ => ⟨rfl, rfl⟩,
      fun h4 => absurd (hc.symm.trans h4) (by decide)⟩
  all_goals
    cases h
    exact ⟨by constructor <;> rfl, fun _ => by constructor <;> rfl, fun hb => Bool.noConfusion hb, fun _ => ⟨rfl, rfl⟩,
      fun h4 => absurd (hc.symm.trans h4) (by decide)⟩

/-- What the command port can do at a tick, of the state at its start. -/
theorem hostPhase_keeps {s t : State}
    (h : hostPhase (currentInputs s) s (beginTick (currentInputs s) s) = .next t) :
    KeepsRest (beginTick (currentInputs s) s) t ∧ (¬ blockingNow s → KeepsMain (beginTick (currentInputs s) s) t) ∧
      (blockingNow s → t.zcPending = false) ∧ (¬ clearsNow s → sameFlags s t) ∧
      (clearsNow s → t.frameReadyFlag = false ∧ t.commandReady = false) := by
  obtain ⟨ha, rfl⟩ | ⟨ha, i, hd, he⟩ := hostPhase_cases h
  · have hn : ¬ acceptsNow s := fun hx => by rw [(accepts_iff s).2 hx] at ha; cases ha
    exact ⟨.rfl, fun _ => .rfl, fun hb => (hn hb.1).elim, fun _ => ⟨rfl, rfl⟩, fun hc => (hn hc.1).elim⟩
  · have hx := (accepts_iff s).1 ha
    obtain ⟨k1, k2, k3, k4, k5⟩ := command_keeps hd he
    have hb : isBlocking i = true ↔ blockingNow s := by
      rw [← blockingAccepted_iff]
      simp [blockingAccepted, ha, hd]
    refine ⟨k1, fun hn => k2 ?_, fun hn => k3 (hb.2 hn), fun hn => k4 fun h4 => hn ⟨hx, h4⟩, fun hn => k5 hn.2⟩
    rw [← hb] at hn
    simpa using hn

/-- A tick without reset, phase by phase, in the terms of the claims: what the command port has left, then the sequencer's
part, then one of the three things the handler can do, then the pending latch. -/
theorem step_phases {s t : State} (hr : (currentInputs s).rst = false) (h : step s = .next t) :
    ∃ hosted mid handled,
      hostPhase (currentInputs s) s (beginTick (currentInputs s) s) = .next hosted ∧
      mid = mainPhase (edgeNow (currentInputs s) s) s hosted ∧
      ((startsNow s ∧ startHandler (currentInputs s).rxIn mid = .next handled) ∨
        (¬ startsNow s ∧ s.rxPhase = .idle ∧ handled = mid) ∨
        (¬ startsNow s ∧ s.rxPhase ≠ .idle ∧ continueHandler (currentInputs s).rxIn mid = .next handled)) ∧
      t = pendingPhase (edgeNow (currentInputs s) s) (blockingAccepted (currentInputs s) s) s handled := by
  obtain ⟨hx, -⟩ | ⟨-, hosted, handled, hh, hn, ht⟩ := step_cases h
  · rw [hr] at hx
    cases hx
  · refine ⟨hosted, _, handled, hh, rfl, ?_, ht⟩
    have hs := handlerStarts_iff s
    obtain ⟨h1, h2⟩ | ⟨h1, h2, h3⟩ | ⟨h1, h2, h3⟩ := handlerPhase_cases hn
    · exact .inl ⟨hs.1 h1, h2⟩
    · exact .inr (.inl ⟨fun hx => (by rw [hs.2 hx] at h1; cases h1), h2, h3⟩)
    · exact .inr (.inr ⟨fun hx => (by rw [hs.2 hx] at h1; cases h1), h2, h3⟩)

/-- The pending latch is the last write of a tick, and writes one field. -/
theorem pendingPhase_keeps (edge blocking : Bool) (s t : State) :
    ∃ latched, pendingPhase edge blocking s t = { t with zcPending := latched } := ⟨_, rfl⟩

/-- While the sequencer is busy, a tick without reset is the sequencer's tick alone: no word is accepted, the handler does
not run, and no edge is latched. -/
theorem busy_step {s t : State} (hc : ControlInv s) (hr : (currentInputs s).rst = false) (hm : s.mainState ≠ .idle)
    (h : step s = .next t) :
    t = { sequencerTick (edgeNow (currentInputs s) s) (beginTick (currentInputs s) s) with zcPending := false } := by
  have ha : s.rxArmed = false := by
    cases hx : s.rxArmed with
    | false => rfl
    | true => exact absurd (hc.armed_idle hx) hm
  have hp : s.rxPhase = .idle := by
    by_contra hx
    have hy := hc.running_armed hx
    rw [ha] at hy
    cases hy
  have hz : s.zcPending = false := by
    cases hx : s.zcPending with
    | false => rfl
    | true =>
      have hy := (hc.pending_armed hx).1
      rw [ha] at hy
      cases hy
  obtain ⟨hosted, mid, handled, hh, rfl, hn, rfl⟩ := step_phases hr h
  obtain ⟨-, rfl⟩ | ⟨hx, -⟩ := hostPhase_cases hh
  · have hd : handled = sequencerTick (edgeNow (currentInputs s) s) (beginTick (currentInputs s) s) := by
      obtain ⟨hx, -⟩ | ⟨-, -, rfl⟩ | ⟨-, hx, -⟩ := hn
      · have hy := hx.1
        rw [ha] at hy
        cases hy
      · unfold mainPhase
        rw [if_neg hm]
      · exact absurd hp hx
    have hl : handled.zcPending = false := by
      rw [hd]
      exact (sequencerTick_keeps _ _).zcPending.trans hz
    subst hd
    simp [pendingPhase, nextPending, ha, hl]
  · exact absurd ((accepts_iff s).1 hx).2.2.1 hm

end Sys2Proof.Machine
end

