-- ==== Sys2Proof/Laws/PerInstr.lean ====
section
/-! SUPPORT. The one statement made per instruction: the encoded word shows the class bits of the instruction's row of
spec/opcode_table.json, the op code of a command word and the payload of a frame word. -/

namespace Sys2Proof.Laws

open Sys2Proof

/-- The bits the opcode table fixes for a row besides the start code: `op_code` (30_encoding.md R92), or the payload
pattern (44_frame_words.md R255). -/
inductive RowKey where
  | opCode (code : BitVec 4)
  | payload (pattern : PayloadPattern)
  deriving DecidableEq, Repr

/-- The row of an instruction, from the table. -/
def rowKey : Instr → RowKey
  | .calibrate => .opCode 0x1
  | .transmit _ _ _ => .opCode 0x2
  | .isCommandReady => .opCode 0x3
  | .clearCommandReady => .opCode 0x4
  | .getHouse => .opCode 0x5
  | .getUnit => .opCode 0x6
  | .getCommand => .opCode 0x7
  | .dumpTiming _ => .opCode 0x8
  | .houseToPattern _ => .opCode 0x9
  | .patternToHouse _ => .opCode 0xA
  | .unitToPattern _ => .opCode 0xB
  | .patternToUnit _ => .opCode 0xC
  | .getStart => .opCode 0xD
  | .isFrameReady => .opCode 0xE
  | .fUnit13 _ _ => .payload 0x00
  | .fAllUnitsOff _ _ => .payload 0x01
  | .fUnit5 _ _ => .payload 0x02
  | .fAllLightsOn _ _ => .payload 0x03
  | .fUnit3 _ _ => .payload 0x04
  | .fOn _ _ => .payload 0x05
  | .fUnit11 _ _ => .payload 0x06
  | .fOff _ _ => .payload 0x07
  | .fUnit15 _ _ => .payload 0x08
  | .fDim _ _ => .payload 0x09
  | .fUnit7 _ _ => .payload 0x0A
  | .fBright _ _ => .payload 0x0B
  | .fUnit1 _ _ => .payload 0x0C
  | .fAllLightsOff _ _ => .payload 0x0D
  | .fUnit9 _ _ => .payload 0x0E
  | .fExtendedCode _ _ => .payload 0x0F
  | .fUnit14 _ _ => .payload 0x10
  | .fHailRequest _ _ => .payload 0x11
  | .fUnit6 _ _ => .payload 0x12
  | .fHailAcknowledge _ _ => .payload 0x13
  | .fUnit4 _ _ => .payload 0x14
  | .fPresetDim _ _ => .payload 0x15
  | .fUnit12 _ _ => .payload 0x16
  | .fCmd17 _ _ => .payload 0x17
  | .fUnit16 _ _ => .payload 0x18
  | .fExtendedData _ _ => .payload 0x19
  | .fUnit8 _ _ => .payload 0x1A
  | .fStatusOn _ _ => .payload 0x1B
  | .fUnit2 _ _ => .payload 0x1C
  | .fStatusOff _ _ => .payload 0x1D
  | .fUnit10 _ _ => .payload 0x1E
  | .fStatusRequest _ _ => .payload 0x1F

/-- The key an encoded word shows. -/
def keyOf : CodeWord → RowKey
  | .command w => .opCode (opCode w)
  | .frame f => .payload (framePayload f)

/-- The encoded word is one of the instruction's row. -/
def OpcodeTable.Statement (i : Instr) : Prop := keyOf (encode i) = rowKey i

theorem OpcodeTable.calibrate : OpcodeTable.Statement (.calibrate) := by
  simp [OpcodeTable.Statement, keyOf, encode, rowKey]

theorem OpcodeTable.transmit (house : HouseCode) (payload : PayloadPattern) (reps : BitVec 8) : OpcodeTable.Statement (.transmit house payload reps) := by
  simp [OpcodeTable.Statement, keyOf, encode, rowKey]

theorem OpcodeTable.isCommandReady : OpcodeTable.Statement (.isCommandReady) := by
  simp [OpcodeTable.Statement, keyOf, encode, rowKey]

theorem OpcodeTable.clearCommandReady : OpcodeTable.Statement (.clearCommandReady) := by
  simp [OpcodeTable.Statement, keyOf, encode, rowKey]

theorem OpcodeTable.getHouse : OpcodeTable.Statement (.getHouse) := by
  simp [OpcodeTable.Statement, keyOf, encode, rowKey]

theorem OpcodeTable.getUnit : OpcodeTable.Statement (.getUnit) := by
  simp [OpcodeTable.Statement, keyOf, encode, rowKey]

theorem OpcodeTable.getCommand : OpcodeTable.Statement (.getCommand) := by
  simp [OpcodeTable.Statement, keyOf, encode, rowKey]

theorem OpcodeTable.dumpTiming (select : BitVec 3) : OpcodeTable.Statement (.dumpTiming select) := by
  simp [OpcodeTable.Statement, keyOf, encode, rowKey]

theorem OpcodeTable.houseToPattern (house : HouseCode) : OpcodeTable.Statement (.houseToPattern house) := by
  simp [OpcodeTable.Statement, keyOf, encode, rowKey]

theorem OpcodeTable.patternToHouse (pattern : HousePattern) : OpcodeTable.Statement (.patternToHouse pattern) := by
  simp [OpcodeTable.Statement, keyOf, encode, rowKey]

theorem OpcodeTable.unitToPattern (number : BitVec 5) : OpcodeTable.Statement (.unitToPattern number) := by
  simp [OpcodeTable.Statement, keyOf, encode, rowKey]

theorem OpcodeTable.patternToUnit (pattern : PayloadPattern) : OpcodeTable.Statement (.patternToUnit pattern) := by
  simp [OpcodeTable.Statement, keyOf, encode, rowKey]

theorem OpcodeTable.getStart : OpcodeTable.Statement (.getStart) := by
  simp [OpcodeTable.Statement, keyOf, encode, rowKey]

theorem OpcodeTable.isFrameReady : OpcodeTable.Statement (.isFrameReady) := by
  simp [OpcodeTable.Statement, keyOf, encode, rowKey]

theorem OpcodeTable.fUnit13 (start : BitVec 4) (house : HousePattern) :
    OpcodeTable.Statement (.fUnit13 start house) := by
  simp [OpcodeTable.Statement, keyOf, encode, rowKey]

theorem OpcodeTable.fAllUnitsOff (start : BitVec 4) (house : HousePattern) :
    OpcodeTable.Statement (.fAllUnitsOff start house) := by
  simp [OpcodeTable.Statement, keyOf, encode, rowKey]

theorem OpcodeTable.fUnit5 (start : BitVec 4) (house : HousePattern) :
    OpcodeTable.Statement (.fUnit5 start house) := by
  simp [OpcodeTable.Statement, keyOf, encode, rowKey]

theorem OpcodeTable.fAllLightsOn (start : BitVec 4) (house : HousePattern) :
    OpcodeTable.Statement (.fAllLightsOn start house) := by
  simp [OpcodeTable.Statement, keyOf, encode, rowKey]

theorem OpcodeTable.fUnit3 (start : BitVec 4) (house : HousePattern) :
    OpcodeTable.Statement (.fUnit3 start house) := by
  simp [OpcodeTable.Statement, keyOf, encode, rowKey]

theorem OpcodeTable.fOn (start : BitVec 4) (house : HousePattern) :
    OpcodeTable.Statement (.fOn start house) := by
  simp [OpcodeTable.Statement, keyOf, encode, rowKey]

theorem OpcodeTable.fUnit11 (start : BitVec 4) (house : HousePattern) :
    OpcodeTable.Statement (.fUnit11 start house) := by
  simp [OpcodeTable.Statement, keyOf, encode, rowKey]

theorem OpcodeTable.fOff (start : BitVec 4) (house : HousePattern) :
    OpcodeTable.Statement (.fOff start house) := by
  simp [OpcodeTable.Statement, keyOf, encode, rowKey]

theorem OpcodeTable.fUnit15 (start : BitVec 4) (house : HousePattern) :
    OpcodeTable.Statement (.fUnit15 start house) := by
  simp [OpcodeTable.Statement, keyOf, encode, rowKey]

theorem OpcodeTable.fDim (start : BitVec 4) (house : HousePattern) :
    OpcodeTable.Statement (.fDim start house) := by
  simp [OpcodeTable.Statement, keyOf, encode, rowKey]

theorem OpcodeTable.fUnit7 (start : BitVec 4) (house : HousePattern) :
    OpcodeTable.Statement (.fUnit7 start house) := by
  simp [OpcodeTable.Statement, keyOf, encode, rowKey]

theorem OpcodeTable.fBright (start : BitVec 4) (house : HousePattern) :
    OpcodeTable.Statement (.fBright start house) := by
  simp [OpcodeTable.Statement, keyOf, encode, rowKey]

theorem OpcodeTable.fUnit1 (start : BitVec 4) (house : HousePattern) :
    OpcodeTable.Statement (.fUnit1 start house) := by
  simp [OpcodeTable.Statement, keyOf, encode, rowKey]

theorem OpcodeTable.fAllLightsOff (start : BitVec 4) (house : HousePattern) :
    OpcodeTable.Statement (.fAllLightsOff start house) := by
  simp [OpcodeTable.Statement, keyOf, encode, rowKey]

theorem OpcodeTable.fUnit9 (start : BitVec 4) (house : HousePattern) :
    OpcodeTable.Statement (.fUnit9 start house) := by
  simp [OpcodeTable.Statement, keyOf, encode, rowKey]

theorem OpcodeTable.fExtendedCode (start : BitVec 4) (house : HousePattern) :
    OpcodeTable.Statement (.fExtendedCode start house) := by
  simp [OpcodeTable.Statement, keyOf, encode, rowKey]

theorem OpcodeTable.fUnit14 (start : BitVec 4) (house : HousePattern) :
    OpcodeTable.Statement (.fUnit14 start house) := by
  simp [OpcodeTable.Statement, keyOf, encode, rowKey]

theorem OpcodeTable.fHailRequest (start : BitVec 4) (house : HousePattern) :
    OpcodeTable.Statement (.fHailRequest start house) := by
  simp [OpcodeTable.Statement, keyOf, encode, rowKey]

theorem OpcodeTable.fUnit6 (start : BitVec 4) (house : HousePattern) :
    OpcodeTable.Statement (.fUnit6 start house) := by
  simp [OpcodeTable.Statement, keyOf, encode, rowKey]

theorem OpcodeTable.fHailAcknowledge (start : BitVec 4) (house : HousePattern) :
    OpcodeTable.Statement (.fHailAcknowledge start house) := by
  simp [OpcodeTable.Statement, keyOf, encode, rowKey]

theorem OpcodeTable.fUnit4 (start : BitVec 4) (house : HousePattern) :
    OpcodeTable.Statement (.fUnit4 start house) := by
  simp [OpcodeTable.Statement, keyOf, encode, rowKey]

theorem OpcodeTable.fPresetDim (start : BitVec 4) (house : HousePattern) :
    OpcodeTable.Statement (.fPresetDim start house) := by
  simp [OpcodeTable.Statement, keyOf, encode, rowKey]

theorem OpcodeTable.fUnit12 (start : BitVec 4) (house : HousePattern) :
    OpcodeTable.Statement (.fUnit12 start house) := by
  simp [OpcodeTable.Statement, keyOf, encode, rowKey]

theorem OpcodeTable.fCmd17 (start : BitVec 4) (house : HousePattern) :
    OpcodeTable.Statement (.fCmd17 start house) := by
  simp [OpcodeTable.Statement, keyOf, encode, rowKey]

theorem OpcodeTable.fUnit16 (start : BitVec 4) (house : HousePattern) :
    OpcodeTable.Statement (.fUnit16 start house) := by
  simp [OpcodeTable.Statement, keyOf, encode, rowKey]

theorem OpcodeTable.fExtendedData (start : BitVec 4) (house : HousePattern) :
    OpcodeTable.Statement (.fExtendedData start house) := by
  simp [OpcodeTable.Statement, keyOf, encode, rowKey]

theorem OpcodeTable.fUnit8 (start : BitVec 4) (house : HousePattern) :
    OpcodeTable.Statement (.fUnit8 start house) := by
  simp [OpcodeTable.Statement, keyOf, encode, rowKey]

theorem OpcodeTable.fStatusOn (start : BitVec 4) (house : HousePattern) :
    OpcodeTable.Statement (.fStatusOn start house) := by
  simp [OpcodeTable.Statement, keyOf, encode, rowKey]

theorem OpcodeTable.fUnit2 (start : BitVec 4) (house : HousePattern) :
    OpcodeTable.Statement (.fUnit2 start house) := by
  simp [OpcodeTable.Statement, keyOf, encode, rowKey]

theorem OpcodeTable.fStatusOff (start : BitVec 4) (house : HousePattern) :
    OpcodeTable.Statement (.fStatusOff start house) := by
  simp [OpcodeTable.Statement, keyOf, encode, rowKey]

theorem OpcodeTable.fUnit10 (start : BitVec 4) (house : HousePattern) :
    OpcodeTable.Statement (.fUnit10 start house) := by
  simp [OpcodeTable.Statement, keyOf, encode, rowKey]

theorem OpcodeTable.fStatusRequest (start : BitVec 4) (house : HousePattern) :
    OpcodeTable.Statement (.fStatusRequest start house) := by
  simp [OpcodeTable.Statement, keyOf, encode, rowKey]

end Sys2Proof.Laws
end

