-- ==== Sys2Proof/Tests/Slice0.lean ====
section
/-! SUPPORT. Tests of single words and single steps, with results from 30_encoding.md, 40_code_tables.md, 44_frame_words.md
and 95_test_vectors.md, and for each statement with hypotheses a witness that meets them. -/

namespace Sys2Proof.Tests

open Sys2Proof Sys2Proof.Machine Sys2Proof.Safety

/-! ### Well-formedness -/

theorem test_dump_select_4_wellFormed : wellFormed (.dumpTiming 4) = true := by decide

theorem test_dump_select_5_refused : wellFormed (.dumpTiming 5) = false := by decide

theorem test_frame_start_1000_wellFormed : wellFormed (.fOn 0b1000 0b0110) = true := by decide

theorem test_unit_frame_start_0110_refused : wellFormed (.fUnit1 0b0110 0b0110) = false := by decide

theorem test_command_frame_start_0111_refused : wellFormed (.fOn 0b0111 0b0110) = false := by decide

/-! ### Decoding, each word written from its encoding: `op_code op_house op_payload op_repeat` (30_encoding.md R91, R92),
`start house payload` (44_frame_words.md R220 to R252) -/

theorem test_decode_calibrate : decodeTableWord 24 0b0001_0000_00000_00000000 = some .calibrate := by decide

theorem test_decode_transmit : decodeTableWord 24 0b0010_1111_11010_10000001 = some (.transmit 15 0b11010 129) := by decide

theorem test_decode_isCommandReady : decodeTableWord 24 0b0011_0000_00000_00000000 = some .isCommandReady := by decide

theorem test_decode_clearCommandReady : decodeTableWord 24 0b0100_1010_00001_11110000 = some .clearCommandReady := by decide

theorem test_decode_getHouse : decodeTableWord 24 0b0101_0000_00000_00000000 = some .getHouse := by decide

theorem test_decode_getUnit : decodeTableWord 24 0b0110_0000_00000_00000000 = some .getUnit := by decide

theorem test_decode_getCommand : decodeTableWord 24 0b0111_0000_00000_00000000 = some .getCommand := by decide

theorem test_decode_dumpTiming : decodeTableWord 24 0b1000_0000_11011_00000000 = some (.dumpTiming 3) := by decide

theorem test_decode_houseToPattern : decodeTableWord 24 0b1001_1000_00000_00000000 = some (.houseToPattern 8) := by decide

theorem test_decode_patternToHouse : decodeTableWord 24 0b1010_0001_00000_00000000 = some (.patternToHouse 1) := by decide

theorem test_decode_unitToPattern : decodeTableWord 24 0b1011_0000_10000_00000000 = some (.unitToPattern 16) := by decide

theorem test_decode_patternToUnit : decodeTableWord 24 0b1100_0000_01100_00000000 = some (.patternToUnit 0b01100) := by decide

theorem test_decode_getStart : decodeTableWord 24 0b1101_0000_00000_00000000 = some .getStart := by decide

theorem test_decode_isFrameReady : decodeTableWord 24 0b1110_0000_00000_00000000 = some .isFrameReady := by decide

theorem test_decode_op_code_0_none : decodeTableWord 24 0b0000_0110_01100_00000001 = none := by decide

theorem test_decode_op_code_15_none : decodeTableWord 24 0b1111_0110_01100_00000001 = none := by decide

theorem test_decode_fUnit13 : decodeTableWord 16 0b1110_0110_00000 = some (.fUnit13 0b1110 0b0110) := by decide

theorem test_decode_fAllUnitsOff : decodeTableWord 16 0b1110_1110_00001 = some (.fAllUnitsOff 0b1110 0b1110) := by decide

theorem test_decode_fUnit5 : decodeTableWord 16 0b1110_0001_00010 = some (.fUnit5 0b1110 0b0001) := by decide

theorem test_decode_fAllLightsOn : decodeTableWord 16 0b1110_1000_00011 = some (.fAllLightsOn 0b1110 0b1000) := by decide

theorem test_decode_fUnit3 : decodeTableWord 16 0b1110_0110_00100 = some (.fUnit3 0b1110 0b0110) := by decide

theorem test_decode_fOn : decodeTableWord 16 0b1110_1110_00101 = some (.fOn 0b1110 0b1110) := by decide

theorem test_decode_fUnit11 : decodeTableWord 16 0b1110_0001_00110 = some (.fUnit11 0b1110 0b0001) := by decide

theorem test_decode_fOff : decodeTableWord 16 0b1110_1000_00111 = some (.fOff 0b1110 0b1000) := by decide

theorem test_decode_fUnit15 : decodeTableWord 16 0b1110_0110_01000 = some (.fUnit15 0b1110 0b0110) := by decide

theorem test_decode_fDim : decodeTableWord 16 0b1110_1110_01001 = some (.fDim 0b1110 0b1110) := by decide

theorem test_decode_fUnit7 : decodeTableWord 16 0b1110_0001_01010 = some (.fUnit7 0b1110 0b0001) := by decide

theorem test_decode_fBright : decodeTableWord 16 0b1110_1000_01011 = some (.fBright 0b1110 0b1000) := by decide

theorem test_decode_fUnit1 : decodeTableWord 16 0b1110_0110_01100 = some (.fUnit1 0b1110 0b0110) := by decide

theorem test_decode_fAllLightsOff : decodeTableWord 16 0b1110_1110_01101 = some (.fAllLightsOff 0b1110 0b1110) := by decide

theorem test_decode_fUnit9 : decodeTableWord 16 0b1110_0001_01110 = some (.fUnit9 0b1110 0b0001) := by decide

theorem test_decode_fExtendedCode : decodeTableWord 16 0b1110_1000_01111 = some (.fExtendedCode 0b1110 0b1000) := by decide

theorem test_decode_fUnit14 : decodeTableWord 16 0b1110_0110_10000 = some (.fUnit14 0b1110 0b0110) := by decide

theorem test_decode_fHailRequest : decodeTableWord 16 0b1110_1110_10001 = some (.fHailRequest 0b1110 0b1110) := by decide

theorem test_decode_fUnit6 : decodeTableWord 16 0b1110_0001_10010 = some (.fUnit6 0b1110 0b0001) := by decide

theorem test_decode_fHailAcknowledge : decodeTableWord 16 0b1110_1000_10011 = some (.fHailAcknowledge 0b1110 0b1000) := by decide

theorem test_decode_fUnit4 : decodeTableWord 16 0b1110_0110_10100 = some (.fUnit4 0b1110 0b0110) := by decide

theorem test_decode_fPresetDim : decodeTableWord 16 0b1110_1110_10101 = some (.fPresetDim 0b1110 0b1110) := by decide

theorem test_decode_fUnit12 : decodeTableWord 16 0b1110_0001_10110 = some (.fUnit12 0b1110 0b0001) := by decide

theorem test_decode_fCmd17 : decodeTableWord 16 0b1110_1000_10111 = some (.fCmd17 0b1110 0b1000) := by decide

theorem test_decode_fUnit16 : decodeTableWord 16 0b1110_0110_11000 = some (.fUnit16 0b1110 0b0110) := by decide

theorem test_decode_fExtendedData : decodeTableWord 16 0b1110_1110_11001 = some (.fExtendedData 0b1110 0b1110) := by decide

theorem test_decode_fUnit8 : decodeTableWord 16 0b1110_0001_11010 = some (.fUnit8 0b1110 0b0001) := by decide

theorem test_decode_fStatusOn : decodeTableWord 16 0b1110_1000_11011 = some (.fStatusOn 0b1110 0b1000) := by decide

theorem test_decode_fUnit2 : decodeTableWord 16 0b1110_0110_11100 = some (.fUnit2 0b1110 0b0110) := by decide

theorem test_decode_fStatusOff : decodeTableWord 16 0b1110_1110_11101 = some (.fStatusOff 0b1110 0b1110) := by decide

theorem test_decode_fUnit10 : decodeTableWord 16 0b1110_0001_11110 = some (.fUnit10 0b1110 0b0001) := by decide

theorem test_decode_fStatusRequest : decodeTableWord 16 0b1110_1000_11111 = some (.fStatusRequest 0b1110 0b1000) := by decide

theorem test_encode_transmit : encode (.transmit 6 0b01100 3) = .command 0b0010_0110_01100_00000011 := by decide

theorem test_encode_on : encode (.fOn 0b1110 0b0110) = .frame 0x1CC5 := by decide

/-! ### Small states -/

/-- Two parameter sets that differ in every constant. -/
def sets : Params :=
  { p50 := ⟨3, 4, 2, 6⟩, p60 := ⟨2, 1, 1, 1⟩, zcPendingLatch := true, strictValidation := false }

/-- The state after reset with these sets. -/
def fresh : State := State.resetWith sets

/-- READY60 of 95_test_vectors.md with the small sets. -/
def ready : State := { fresh with calibrated := true, rxArmed := true, profile := ⟨60, 2, 1, 1, 1⟩ }

/-- READY60 with a result waiting. -/
def holding : State :=
  { ready with
    rxHouse := 9
    rxUnit := 12
    rxCommand := 0b00111
    rxStart := 0b1110
    commandReady := true
    frameReadyFlag := true }

/-- The levels of a tick with no word presented. -/
def levels (zc rx : Bool) : Inputs := { rst := false, zcIn := zc, rxIn := rx, opValid := false, opWord := 0 }

/-- The levels of a tick that presents a word. -/
def presents (zc : Bool) (w : CommandWord) : Inputs :=
  { rst := false, zcIn := zc, rxIn := true, opValid := true, opWord := w }

/-- The state whose next ticks have these levels. -/
def facing (ins : List Inputs) (s : State) : State := { s with inputs := ins }

/-- The state after one step, if there is one. -/
def after (s : State) : Option State :=
  match step s with
  | .next t => some t
  | .fault _ => none
  | .refused _ => none

/-- The state after the step that runs a placed word. -/
def ran (nbits w : Nat) (s : State) : Option State := after (s.withFetchWord nbits w)

/-! ### One step of each host operation, run where the step takes its next instruction -/

theorem test_step_calibrate :
    (ran 24 0x020000 ready).map (fun t => (t.mainState, t.rxArmed, t.calibrated, t.rspData, t.rspHit)) =
      some (.calSync, false, true, 0, true) := by decide

theorem test_step_transmit :
    (ran 24 0b0010_0001_01100_00000010 ready).map
        (fun t => (t.mainState, t.txHousePat, t.txPayload, t.txRepeat, t.rxArmed)) =
      some (.txWait, 0b1110, 0b01100, 2, false) := by decide

theorem test_step_transmit_dim_zero_times :
    (ran 24 0b0010_0000_01001_00000000 ready).map (fun t => (t.mainState, t.rxArmed, t.txPayload)) =
      some (.idle, true, 0b01001) := by decide

theorem test_step_isCommandReady :
    (ran 24 0x060000 holding).map (fun t => (t.rspData, t.rspHit, t.commandReady)) = some (1, true, true) := by decide

theorem test_step_clearCommandReady :
    (ran 24 0x080000 holding).map (fun t => (t.commandReady, t.frameReadyFlag, t.rspData, t.rxUnit)) =
      some (false, false, 0, 12) := by decide

theorem test_step_getHouse : (ran 24 0x0A0000 holding).map (fun t => (t.rspData, t.rspHit)) = some (9, true) := by decide

theorem test_step_getUnit : (ran 24 0x0C0000 holding).map (fun t => (t.rspData, t.rspHit)) = some (12, true) := by decide

theorem test_step_getCommand : (ran 24 0x0E0000 holding).map (fun t => (t.rspData, t.rspHit)) = some (7, true) := by
  decide

theorem test_step_dumpTiming_frequency :
    (ran 24 0x100000 ready).map (fun t => (t.rspData, t.rspHit)) = some (60, true) := by decide

theorem test_step_dumpTiming_select_7_refused :
    step (ready.withFetchWord 24 0x100700) = .refused (.reservedFieldSelect 7) := by rfl

theorem test_step_houseToPattern :
    (ran 24 0x120000 fresh).map (fun t => (t.rspData, t.rspHit)) = some (6, true) := by decide

theorem test_step_patternToHouse :
    (ran 24 0x14C000 fresh).map (fun t => (t.rspData, t.rspHit)) = some (0, true) := by decide

theorem test_step_unitToPattern :
    (ran 24 0x160100 fresh).map (fun t => (t.rspData, t.rspHit)) = some (0x0C, true) := by decide

theorem test_step_unitToPattern_miss :
    (ran 24 0x161100 fresh).map (fun t => (t.rspData, t.rspHit)) = some (0, false) := by decide

theorem test_step_patternToUnit :
    (ran 24 0x180C00 fresh).map (fun t => (t.rspData, t.rspHit)) = some (1, true) := by decide

theorem test_step_patternToUnit_miss :
    (ran 24 0x180500 fresh).map (fun t => (t.rspData, t.rspHit)) = some (0, false) := by decide

theorem test_step_getStart : (ran 24 0x1A0000 holding).map (fun t => (t.rspData, t.rspHit)) = some (14, true) := by
  decide

theorem test_step_isFrameReady : (ran 24 0x1C0000 fresh).map (fun t => (t.rspData, t.rspHit)) = some (0, true) := by
  decide

theorem test_reserved_word_runs_as_nothing : (fresh.withFetchWord 24 0x1E0000).inputs.length = 1 := by decide

/-! ### Each frame word received, the examples of 44_frame_words.md R220 to R251 for house A -/

theorem test_receive_fUnit13 :
    (ran 16 0x1CC0 holding).map (fun t => (t.rxHouse, t.rxUnit, t.rxCommand, t.commandReady)) =
      some (0, 13, 7, false) := by decide

theorem test_receive_fAllUnitsOff :
    (ran 16 0x1CC1 holding).map (fun t => (t.rxHouse, t.rxUnit, t.rxCommand, t.commandReady)) =
      some (0, 12, 0x01, true) := by decide

theorem test_receive_fUnit5 :
    (ran 16 0x1CC2 holding).map (fun t => (t.rxHouse, t.rxUnit, t.rxCommand, t.commandReady)) =
      some (0, 5, 7, false) := by decide

theorem test_receive_fAllLightsOn :
    (ran 16 0x1CC3 holding).map (fun t => (t.rxHouse, t.rxUnit, t.rxCommand, t.commandReady)) =
      some (0, 12, 0x03, true) := by decide

theorem test_receive_fUnit3 :
    (ran 16 0x1CC4 holding).map (fun t => (t.rxHouse, t.rxUnit, t.rxCommand, t.commandReady)) =
      some (0, 3, 7, false) := by decide

theorem test_receive_fOn :
    (ran 16 0x1CC5 holding).map (fun t => (t.rxHouse, t.rxUnit, t.rxCommand, t.commandReady)) =
      some (0, 12, 0x05, true) := by decide

theorem test_receive_fUnit11 :
    (ran 16 0x1CC6 holding).map (fun t => (t.rxHouse, t.rxUnit, t.rxCommand, t.commandReady)) =
      some (0, 11, 7, false) := by decide

theorem test_receive_fOff :
    (ran 16 0x1CC7 holding).map (fun t => (t.rxHouse, t.rxUnit, t.rxCommand, t.commandReady)) =
      some (0, 12, 0x07, true) := by decide

theorem test_receive_fUnit15 :
    (ran 16 0x1CC8 holding).map (fun t => (t.rxHouse, t.rxUnit, t.rxCommand, t.commandReady)) =
      some (0, 15, 7, false) := by decide

theorem test_receive_fDim :
    (ran 16 0x1CC9 holding).map (fun t => (t.rxHouse, t.rxUnit, t.rxCommand, t.commandReady)) =
      some (0, 12, 0x09, true) := by decide

theorem test_receive_fUnit7 :
    (ran 16 0x1CCA holding).map (fun t => (t.rxHouse, t.rxUnit, t.rxCommand, t.commandReady)) =
      some (0, 7, 7, false) := by decide

theorem test_receive_fBright :
    (ran 16 0x1CCB holding).map (fun t => (t.rxHouse, t.rxUnit, t.rxCommand, t.commandReady)) =
      some (0, 12, 0x0B, true) := by decide

theorem test_receive_fUnit1 :
    (ran 16 0x1CCC holding).map (fun t => (t.rxHouse, t.rxUnit, t.rxCommand, t.commandReady)) =
      some (0, 1, 7, false) := by decide

theorem test_receive_fAllLightsOff :
    (ran 16 0x1CCD holding).map (fun t => (t.rxHouse, t.rxUnit, t.rxCommand, t.commandReady)) =
      some (0, 12, 0x0D, true) := by decide

theorem test_receive_fUnit9 :
    (ran 16 0x1CCE holding).map (fun t => (t.rxHouse, t.rxUnit, t.rxCommand, t.commandReady)) =
      some (0, 9, 7, false) := by decide

theorem test_receive_fExtendedCode :
    (ran 16 0x1CCF holding).map (fun t => (t.rxHouse, t.rxUnit, t.rxCommand, t.commandReady)) =
      some (0, 12, 0x0F, true) := by decide

theorem test_receive_fUnit14 :
    (ran 16 0x1CD0 holding).map (fun t => (t.rxHouse, t.rxUnit, t.rxCommand, t.commandReady)) =
      some (0, 14, 7, false) := by decide

theorem test_receive_fHailRequest :
    (ran 16 0x1CD1 holding).map (fun t => (t.rxHouse, t.rxUnit, t.rxCommand, t.commandReady)) =
      some (0, 12, 0x11, true) := by decide

theorem test_receive_fUnit6 :
    (ran 16 0x1CD2 holding).map (fun t => (t.rxHouse, t.rxUnit, t.rxCommand, t.commandReady)) =
      some (0, 6, 7, false) := by decide

theorem test_receive_fHailAcknowledge :
    (ran 16 0x1CD3 holding).map (fun t => (t.rxHouse, t.rxUnit, t.rxCommand, t.commandReady)) =
      some (0, 12, 0x13, true) := by decide

theorem test_receive_fUnit4 :
    (ran 16 0x1CD4 holding).map (fun t => (t.rxHouse, t.rxUnit, t.rxCommand, t.commandReady)) =
      some (0, 4, 7, false) := by decide

theorem test_receive_fPresetDim :
    (ran 16 0x1CD5 holding).map (fun t => (t.rxHouse, t.rxUnit, t.rxCommand, t.commandReady)) =
      some (0, 12, 0x15, true) := by decide

theorem test_receive_fUnit12 :
    (ran 16 0x1CD6 holding).map (fun t => (t.rxHouse, t.rxUnit, t.rxCommand, t.commandReady)) =
      some (0, 12, 7, false) := by decide

theorem test_receive_fCmd17 :
    (ran 16 0x1CD7 holding).map (fun t => (t.rxHouse, t.rxUnit, t.rxCommand, t.commandReady)) =
      some (0, 12, 0x17, true) := by decide

theorem test_receive_fUnit16 :
    (ran 16 0x1CD8 holding).map (fun t => (t.rxHouse, t.rxUnit, t.rxCommand, t.commandReady)) =
      some (0, 16, 7, false) := by decide

theorem test_receive_fExtendedData :
    (ran 16 0x1CD9 holding).map (fun t => (t.rxHouse, t.rxUnit, t.rxCommand, t.commandReady)) =
      some (0, 12, 0x19, true) := by decide

theorem test_receive_fUnit8 :
    (ran 16 0x1CDA holding).map (fun t => (t.rxHouse, t.rxUnit, t.rxCommand, t.commandReady)) =
      some (0, 8, 7, false) := by decide

theorem test_receive_fStatusOn :
    (ran 16 0x1CDB holding).map (fun t => (t.rxHouse, t.rxUnit, t.rxCommand, t.commandReady)) =
      some (0, 12, 0x1B, true) := by decide

theorem test_receive_fUnit2 :
    (ran 16 0x1CDC holding).map (fun t => (t.rxHouse, t.rxUnit, t.rxCommand, t.commandReady)) =
      some (0, 2, 7, false) := by decide

theorem test_receive_fStatusOff :
    (ran 16 0x1CDD holding).map (fun t => (t.rxHouse, t.rxUnit, t.rxCommand, t.commandReady)) =
      some (0, 12, 0x1D, true) := by decide

theorem test_receive_fUnit10 :
    (ran 16 0x1CDE holding).map (fun t => (t.rxHouse, t.rxUnit, t.rxCommand, t.commandReady)) =
      some (0, 10, 7, false) := by decide

theorem test_receive_fStatusRequest :
    (ran 16 0x1CDF holding).map (fun t => (t.rxHouse, t.rxUnit, t.rxCommand, t.commandReady)) =
      some (0, 12, 0x1F, true) := by decide

/-! ### Single ticks -/

/-- 10_state.md R40: a change in either direction is an edge. -/
theorem test_falling_edge_counts :
    (after (facing [levels false true] { ready with bitCount := 5, zeroCrossCount := 5, zcPrev := true })).map
        (fun t => (t.zeroCrossCount, t.rxPhase)) = some (6, .idle) := by decide

/-- 43_receiver.md R185. -/
theorem test_low_sample_starts_a_frame :
    (after (facing [levels false false] { ready with rxPhase := .offset, rxTimer := 1 })).map
        (fun t => (t.accumulatorBuffer, t.bitMask, t.bitCount, t.zeroCrossCount, t.rxPhase)) =
      some (0x1000, 0x0800, 1, 1, .idle) := by decide

/-- 43_receiver.md R183. -/
theorem test_high_sample_starts_nothing :
    (after (facing [levels false true] { ready with rxPhase := .offset, rxTimer := 1 })).map
        (fun t => (t.accumulatorBuffer, t.bitMask, t.bitCount, t.zeroCrossCount, t.rxPhase)) =
      some (0, 0, 0, 0, .idle) := by decide

/-- 42_transmitter.md R155: at the edge of a slot that carries 1 the line goes high. -/
theorem test_slot_drives_the_line :
    (after (facing [levels true true]
        { ready with rxArmed := false, mainState := .txWait, txBit := 3, txRepeat := 1 })).map
        (fun t => (t.txReg, t.mainState, t.mainTimer)) = some (true, .txPulse, 2) := by decide

/-- 41_timing_profile.md R136 on both sides of the boundary, and the saturated count. -/
theorem test_selection_1851851 : (profileOf sets 1851851).bitLengthUs = 2 := by decide

theorem test_selection_1851852 : (profileOf sets 1851852).bitLengthUs = 3 := by decide

theorem test_selection_saturated : (profileOf sets (BitVec.allOnes 32)).mainsFrequencyHz = 0 := by decide

/-- 42_transmitter.md R162, "Advance the slot": past the last slot `txHalf` is `H_TRUE`, also in the guard. -/
theorem test_last_slot_clears_the_half :
    (after (facing [levels true true]
        { ready with
          rxArmed := false
          mainState := .txPulse
          mainTimer := 1
          txField := .payload
          txHalf := .complement
          txPhase := 2
          txRepeat := 1 })).map
        (fun t => (t.mainState, t.txHalf, t.edgeCount)) = some (.guard, .plain, 6) := by decide

/-- 42_transmitter.md R157: the sixth guard edge ends the TRANSMIT. -/
theorem test_guard_ends :
    (after (facing [levels true true] { ready with rxArmed := false, mainState := .guard, edgeCount := 1 })).map
        (fun t => (t.mainState, t.rxArmed, t.edgeCount)) = some (.idle, true, 0) := by decide

/-- 60_exceptions.md R265. -/
theorem test_edge_in_the_hold_is_latched :
    (after (facing [levels true true] { ready with rxPhase := .hold, rxTimer := 4, bitCount := 13 })).map
        (fun t => (t.zcPending, t.rxPhase, t.rxTimer)) = some (true, .hold, 3) := by decide

/-- 70_reset_and_hazards.md R290: a reset tick takes no word and no edge. -/
theorem test_reset_tick :
    (after (facing [{ presents true 0x020000 with rst := true }] holding)).map
        (fun t => (t.mainState, t.calibrated, t.commandReady, t.zcPrev)) = some (.idle, false, false, true) := by decide

/-! ### Witnesses of the statements' hypotheses

Each theorem `witness_<Name>` shows concrete states and operands that meet the hypotheses of `Obligations.<Name>` together,
at the ends of their ranges where there are ranges. -/

/-- A step that answers a next state. -/
def goesOn (s : State) : Bool := (after s).isSome

theorem goesOn_next {s : State} (h : goesOn s = true) : ∃ t, step s = .next t := by
  unfold goesOn after at h
  cases hs : step s with
  | next t => exact ⟨t, rfl⟩
  | fault r => rw [hs] at h; cases h
  | refused r => rw [hs] at h; cases h

/-- Idle, armed, a non-blocking word presented. -/
def readsHouse : State := facing [presents false 0x0A0000] ready

/-- Idle, armed, CALIBRATE presented at an edge. -/
def calibrates : State := facing [presents true 0x020000] ready

/-- Idle, armed, TRANSMIT of house A, unit 1, once, presented at an edge. -/
def transmits : State := facing [presents true 0x040C01] ready

/-- The last tick of a hold over the frame 0x1CC5, and an edge. -/
def held : State :=
  facing [levels true true]
    { ready with rxPhase := .hold, rxTimer := 1, bitCount := 13, accumulatorBuffer := 0x1CC5, zeroCrossCount := 21 }

/-- Waiting for the slot of the first start bit, an edge now and quiet ticks after it. -/
def sends : State :=
  facing (List.replicate 40 (levels true true))
    { ready with rxArmed := false, mainState := .txWait, txField := .start, txBit := 3, txRepeat := 1 }

/-- Assembling a frame of which five bits are stored, in the offset delay of the sixth. -/
def assembles : State :=
  facing [levels false false]
    { ready with
      rxPhase := .offset
      rxTimer := 1
      bitCount := 5
      zeroCrossCount := 7
      bitMask := 0x080
      accumulatorBuffer := 0x1C00 }

/-- One edge before the end of a calibration that has lasted `n` ticks. -/
def calibrating (n : BitVec 32) : State :=
  facing [levels true true]
    { fresh with mainState := .calCount, edgeCount := 1, calElapsed := n }

/-- A field of the state after the step. -/
theorem after_field {s t : State} {α : Type} {f : State → α} {a : α} (ht : step s = .next t)
    (h : (after s).map f = some a) : f t = a := by
  unfold after at h
  rw [ht] at h
  exact Option.some.inj h

/-- Every op code is the op code of some word, so each clause of the statement has one. -/
theorem witness_CommandWordsDecodeByOpCode (code : BitVec 4) : ∃ w : CommandWord, w.extractLsb' 17 4 = code :=
  ⟨commandWord code 0xF 0x1F 0xFF, opCode_commandWord code 0xF 0x1F 0xFF⟩

theorem witness_StepRunsTheAcceptedWord :
    acceptsNow readsHouse ∧ decodeCommand (currentInputs readsHouse).opWord = .ok .getHouse ∧
    edgeNow (currentInputs readsHouse) readsHouse = false ∧ readsHouse.zcPending = false ∧
    acceptsNow calibrates ∧ decodeCommand (currentInputs calibrates).opWord = .ok .calibrate ∧
    isBlocking .calibrate = true := by
  unfold acceptsNow; decide

theorem witness_StepRunsTheAssembledFrame :
    (currentInputs held).rst = false ∧ held.mainState = .idle ∧ held.rxPhase = .hold ∧ held.rxTimer.toNat ≤ 1 ∧
    edgeNow (currentInputs (facing [levels false true] held)) (facing [levels false true] held) = false ∧
    held.zcPending = false := by
  decide

theorem witness_ReservedWordsAreRefused :
    (∀ w, acceptsNow (facing [presents false w] ready)) ∧
    presentedCode (facing [presents false 0x000000] ready) = 0x0 ∧
    presentedCode (facing [presents false 0x1E0000] ready) = 0xF ∧
    presentedCode (facing [presents false 0x100500] ready) = 0x8 ∧
    ((currentInputs (facing [presents false 0x100500] ready)).opWord.extractLsb' 8 3).toNat = 5 ∧
    ((currentInputs (facing [presents false 0x100700] ready)).opWord.extractLsb' 8 3).toNat = 7 := by
  exact ⟨fun _ => ⟨rfl, rfl, rfl, rfl⟩, by decide⟩

theorem witness_StepStopsOnlyWhereTheSpecRefuses :
    refusesNow (facing [presents false 0x000000] ready) ∧ ¬ refusesNow readsHouse ∧
    refusesNow (facing [presents false 0x040C01] fresh) ∧ ¬ refusesNow transmits := by
  unfold refusesNow acceptsNow; decide

theorem witness_WordsPresentedWhileBusyAreDropped :
    (∃ inp rest, sends.inputs = inp :: rest ∧ sends.mainState ≠ .idle) ∧
    (∃ inp rest, held.inputs = inp :: rest ∧ held.rxPhase ≠ .idle) ∧
    ∃ inp rest, (facing [{ levels true true with rst := true }] ready).inputs = inp :: rest ∧ inp.rst = true :=
  ⟨⟨_, _, rfl, by decide⟩, ⟨_, _, rfl, by decide⟩, ⟨_, _, rfl, by decide⟩⟩

theorem controlInv_armed {s : State} (h1 : s.mainState = .idle) (h2 : s.rxArmed = true) (h3 : s.calibrated = true)
    (h4 : s.zcPending = false) : ControlInv s := by
  constructor <;> simp [h1, h2, h3, h4, sending]

theorem controlInv_busy {s : State} (h1 : s.rxArmed = false) (h2 : s.rxPhase = .idle) (h3 : s.zcPending = false)
    (h4 : s.calibrated = true ∨ s.mainState = .calSync ∨ s.mainState = .calCount) : ControlInv s := by
  obtain h | h | h := h4 <;> constructor <;> simp [h1, h2, h3, h, sending]

theorem controlInv_sends : ControlInv sends := controlInv_busy rfl rfl rfl (.inl rfl)

theorem controlInv_held : ControlInv held := controlInv_armed rfl rfl rfl rfl

theorem controlInv_assembles : ControlInv assembles := controlInv_armed rfl rfl rfl rfl

theorem witness_TheLineIsReadOnlyAtTheSample :
    ControlInv sends ∧ (∃ inp rest, sends.inputs = inp :: rest) ∧ ¬ readsLine sends := by
  refine ⟨controlInv_sends, ⟨_, _, rfl⟩, ?_⟩
  unfold readsLine startsNow
  rintro (⟨h, -⟩ | ⟨⟨h, -⟩, -⟩)
  · exact RxPhase.noConfusion h
  · exact Bool.noConfusion h

theorem witness_EveryTickFollowsTheLine : ∃ t, step sends = .next t := goesOn_next (by decide)

theorem witness_ResetTickGivesTheResetState :
    (currentInputs (facing [{ levels true true with rst := true }] holding)).rst = true := by
  decide

theorem witness_ResetTickEstablishesTheInvariant :
    (currentInputs (facing [{ levels true true with rst := true }] holding)).rst = true ∧
    ∃ t, step (facing [{ levels true true with rst := true }] holding) = .next t :=
  ⟨by decide, goesOn_next (by decide)⟩

theorem witness_ControlInvariantKept : ControlInv sends ∧ (∃ t, step sends = .next t) ∧
    ControlInv transmits ∧ (∃ t, step transmits = .next t) ∧ ControlInv held ∧ ∃ t, step held = .next t :=
  ⟨controlInv_sends, goesOn_next (by decide), controlInv_armed rfl rfl rfl rfl, goesOn_next (by decide),
    controlInv_held,
    goesOn_next (by decide)⟩

theorem receiverInv_assembles : ReceiverInv assembles := by
  constructor
  · decide
  · decide
  · decide
  · decide
  · intro _ j hj
    have h8 : j + 5 < 13 := hj
    have : j < 8 := by omega
    interval_cases j <;> decide
  · unfold crossCountFits
    decide
  · decide
  · decide

theorem witness_ReceiverInvariantKept :
    ControlInv assembles ∧ ReceiverInv assembles ∧ ∃ t, step assembles = .next t :=
  ⟨controlInv_assembles, receiverInv_assembles, goesOn_next (by decide)⟩

theorem sequencerInv_sends : SequencerInv sends := by constructor <;> decide

theorem witness_SequencerInvariantKept : ControlInv sends ∧ SequencerInv sends ∧ ∃ t, step sends = .next t :=
  ⟨controlInv_sends, sequencerInv_sends, goesOn_next (by decide)⟩

theorem witness_ProfileInvariantKept : ProfileInv ready ∧ ready.calibrated = true ∧
    ∃ t, step (facing [levels true true] ready) = .next t := by
  refine ⟨?_, by decide, goesOn_next (by decide)⟩
  unfold ProfileInv hasSet
  decide

theorem witness_ResultInvariantKept :
    ReceiverInv assembles ∧ ResultInv assembles ∧ ∃ t, step assembles = .next t :=
  ⟨receiverInv_assembles, by constructor <;> decide, goesOn_next (by decide)⟩

theorem witness_ClearCommandReadyClearsBothFlags : BitVec.extractLsb' 17 4 0x080000#21 = 0x4 := by decide

theorem witness_DumpTimingReturnsTheField : 5 ≤ (5#3).toNat ∧ 5 ≤ (7#3).toNat := by decide

theorem witness_HouseToPatternLooksUp : BitVec.extractLsb' 17 4 0x121FFF#21 = 0x9 := by decide

theorem witness_PatternToHouseLooksUp : BitVec.extractLsb' 17 4 0x141FFF#21 = 0xA := by decide

theorem witness_UnitToPatternLooksUp : BitVec.extractLsb' 17 4 0x17E0FF#21 = 0xB := by decide

theorem witness_PatternToUnitLooksUp : BitVec.extractLsb' 17 4 0x19E0FF#21 = 0xC := by decide

theorem witness_TransmitLatchesAndWaits :
    ready.calibrated = true ∧ (255#8 ≠ 0) ∧ (0b01100#5 ≠ 0b01001 ∧ 0b01100#5 ≠ 0b01011) := by
  decide

theorem witness_TransmitBeforeCalibrateIsRefused :
    fresh.calibrated = false ∧ acceptsNow (facing [presents false 0x040C01] fresh) ∧
    presentedCode (facing [presents false 0x040C01] fresh) = 0x2 := by
  unfold acceptsNow; decide

/-- Also of `CommandWordsWriteTheCommand`. -/
theorem witness_UnitWordsWriteTheUnit : ready.params.strictValidation = false := by decide

theorem witness_CommandWordsWriteTheCommand : holding.params.strictValidation = false := by decide

/-- Under strict validation, with a unit word of house A pending. -/
def strictReady : State :=
  { ready with params := { sets with strictValidation := true }, unitPending := true, unitHousePat := 0b0110 }

theorem witness_StrictUnitWordsOpenThePair : strictReady.params.strictValidation = true := by decide

theorem witness_StrictCommandWordsNeedThePair :
    strictReady.params.strictValidation = true ∧ strictReady.unitPending = true ∧ strictReady.unitHousePat = 0b0110 := by
  decide

theorem witness_LastCalibrationEdgeSelectsTheSet :
    ∀ n ∈ [0#32, 1851850#32, 1851851#32, 0xFFFFFFFF#32],
      ControlInv (calibrating n) ∧ (currentInputs (calibrating n)).rst = false ∧
        (calibrating n).mainState = .calCount ∧ (calibrating n).edgeCount = 1 ∧ edgeAt (calibrating n) := by
  intro n _
  exact ⟨controlInv_busy rfl rfl rfl (.inr (.inr rfl)), rfl, rfl, rfl, Bool.noConfusion⟩

/-- The tick after the acceptance of a CALIBRATE, and 201 ticks each with an edge. -/
def measures : State :=
  facing ((List.range 201).map fun k => levels (k % 2 == 0) true) { fresh with mainState := .calSync }

theorem witness_CalibrationMeasuresTheElapsedTicks :
    ControlInv measures ∧ measures.mainState = .calSync ∧ noReset (1 + 200) measures ∧
    edgesIn measures.zcPrev (measures.inputs.take 0) = 0 ∧ edgesIn measures.zcPrev (measures.inputs.take 1) = 1 ∧
    edgesIn measures.zcPrev (measures.inputs.take 200) = 200 ∧
    edgesIn measures.zcPrev (measures.inputs.take 201) = 201 := by
  refine ⟨controlInv_busy rfl rfl rfl (.inr (.inl rfl)), rfl, ?_, ?_, ?_, ?_, ?_⟩
  · unfold noReset
    decide +kernel
  · decide +kernel
  · decide +kernel
  · decide +kernel
  · decide +kernel

theorem witness_SlotShowsThreePulses :
    ControlInv sends ∧ sends.mainState = .txWait ∧ edgeAt sends ∧
    3 * sends.profile.bitLengthUs.toNat + 2 * sends.profile.bitDelayUs.toNat = 8 ∧ noReset 9 sends ∧
    ∃ zero : State, ControlInv zero ∧ zero.mainState = .txWait ∧ edgeAt zero ∧
      3 * zero.profile.bitLengthUs.toNat + 2 * zero.profile.bitDelayUs.toNat = 0 ∧ noReset 1 zero := by
  refine ⟨controlInv_sends, by decide, by unfold edgeAt; decide, by decide, by unfold noReset; decide,
    { sends with profile := ⟨60, 0, 0, 1, 1⟩ }, controlInv_busy rfl rfl rfl (.inl rfl), by decide, by unfold edgeAt; decide, by decide,
    by unfold noReset; decide⟩

theorem witness_HouseAUnitOneSlots : ready.calibrated = true := by decide

theorem witness_EdgeWaitsAtAcceptance : holding.calibrated = true := by decide

theorem witness_EdgeWaitsCountDown :
    SequencerInv sends ∧ sends.mainState ≠ .idle ∧ (currentInputs sends).rst = false ∧ (∃ t, step sends = .next t) ∧
    (waitsForEdge sends = true ∧ edgeAt sends) ∧
    SequencerInv (facing [levels false true] sends) ∧ (∃ t, step (facing [levels false true] sends) = .next t) ∧
    ¬ edgeAt (facing [levels false true] sends) := by
  refine ⟨sequencerInv_sends, by decide, by decide, goesOn_next (by decide), ⟨by decide, by unfold edgeAt; decide⟩,
    by constructor <;> decide, goesOn_next (by decide), by unfold edgeAt; decide⟩

theorem witness_WaitWithoutEdgeNeverEnds :
    ControlInv (facing (List.replicate 5 (levels false true)) sends) ∧
    waitsForEdge (facing (List.replicate 5 (levels false true)) sends) = true ∧
    noReset 5 (facing (List.replicate 5 (levels false true)) sends) ∧
    edgesIn false ((List.replicate 5 (levels false true)).take 5) = 0 := by
  refine ⟨controlInv_busy rfl rfl rfl (.inl rfl), by decide, by unfold noReset; decide, by decide⟩

/-- The last guard edge. -/
def ends : State := facing [levels true true] { ready with rxArmed := false, mainState := .guard, edgeCount := 1 }

theorem witness_SequencerEndRearmsTheReceiver :
    ControlInv ends ∧ SequencerInv ends ∧ (currentInputs ends).rst = false ∧ ends.mainState ≠ .idle ∧
    ∃ t, step ends = .next t ∧ t.mainState = .idle := by
  refine ⟨controlInv_busy rfl rfl rfl (.inl rfl), by constructor <;> decide, by decide, by decide, ?_⟩
  have h : (after ends).map (·.mainState) = some .idle := by decide
  obtain ⟨t, ht⟩ := goesOn_next (s := ends) (by decide)
  refine ⟨t, ht, ?_⟩
  exact after_field (f := (·.mainState)) ht h

/-- A receiver at an edge, `bits` bits stored after `edges` edges, the line low, with an offset of `offset` ticks. -/
def crossing (bits : BitVec 4) (edges : BitVec 5) (offset : BitVec 16) : State :=
  facing (List.replicate 4 (levels true false))
    { ready with bitCount := bits, zeroCrossCount := edges, profile := ⟨60, 2, 1, offset, 1⟩ }

theorem startsNow_crossing (bits : BitVec 4) (edges : BitVec 5) (offset : BitVec 16) :
    startsNow (crossing bits edges offset) :=
  ⟨rfl, rfl, .inl (by unfold edgeAt; show true ≠ false; decide), fun h => Bool.noConfusion h.1.2.1⟩

theorem controlInv_crossing (bits : BitVec 4) (edges : BitVec 5) (offset : BitVec 16) :
    ControlInv (crossing bits edges offset) := by
  exact controlInv_armed rfl rfl rfl rfl

theorem witness_SampleComesAtTheOffset :
    ControlInv (crossing 0 0 3) ∧ startsNow (crossing 0 0 3) ∧ samplesCrossing (crossing 0 0 3) ∧
    (currentInputs (crossing 0 0 3)).opValid = false ∧ 1 ≤ (crossing 0 0 3).profile.offsetDelayUs.toNat ∧
    noReset 3 (crossing 0 0 3) ∧
    samplesCrossing (crossing 12 20 1) ∧ noReset 1 (crossing 12 20 1) := by
  refine ⟨controlInv_crossing _ _ _, startsNow_crossing _ _ _, .inl rfl, by decide, by decide, by unfold noReset; decide,
    by unfold samplesCrossing; decide, by unfold noReset; decide⟩

theorem witness_LowSampleInIdleStartsAFrame :
    ControlInv (crossing 0 0 0) ∧ (currentInputs (crossing 0 0 0)).rst = false ∧ (crossing 0 0 0).bitCount = 0 ∧
    readsLine (crossing 0 0 0) ∧ (∃ t, step (crossing 0 0 0) = .next t) ∧
    (currentInputs (crossing 0 0 0)).rxIn = false ∧
    ∃ high : State, ControlInv high ∧ high.bitCount = 0 ∧ readsLine high ∧ (currentInputs high).rxIn = true ∧
      ∃ t, step high = .next t := by
  refine ⟨controlInv_crossing _ _ _, by decide, by decide, .inr ⟨startsNow_crossing _ _ _, .inl rfl, rfl⟩,
    goesOn_next (by decide), by decide, facing [levels false true] { ready with rxPhase := .offset, rxTimer := 1 },
    controlInv_armed rfl rfl rfl rfl, by decide, .inl ⟨rfl, by decide⟩, by decide, goesOn_next (by decide)⟩

theorem witness_CrossingsAreCountedAndSampled :
    (∀ p ∈ [(1#4, 1#5, 1#16), (4#4, 4#5, 1#16), (12#4, 20#5, 1#16), (5#4, 5#5, 1#16), (12#4, 19#5, 1#16),
        (12#4, 20#5, 0#16)],
      1 ≤ p.1.toNat ∧ p.1.toNat ≤ 12 ∧ ControlInv (crossing p.1 p.2.1 p.2.2) ∧ startsNow (crossing p.1 p.2.1 p.2.2) ∧
        (currentInputs (crossing p.1 p.2.1 p.2.2)).rst = false) ∧
    goesOn (crossing 1 1 1) = true ∧ goesOn (crossing 5 5 1) = true ∧ goesOn (crossing 12 20 0) = true ∧
    (5#5 + 1#5).getLsbD 0 = false ∧ (20#5 + 1#5).getLsbD 0 = true := by
  refine ⟨?_, by decide, by decide, by decide, by decide, by decide⟩
  intro p hp
  refine ⟨?_, ?_, controlInv_crossing _ _ _, startsNow_crossing _ _ _, rfl⟩
  · exact (show ∀ q ∈ [(1#4, 1#5, 1#16), (4#4, 4#5, 1#16), (12#4, 20#5, 1#16), (5#4, 5#5, 1#16), (12#4, 19#5, 1#16),
        (12#4, 20#5, 0#16)], 1 ≤ q.1.toNat by simp) p hp
  · exact (show ∀ q ∈ [(1#4, 1#5, 1#16), (4#4, 4#5, 1#16), (12#4, 20#5, 1#16), (5#4, 5#5, 1#16), (12#4, 19#5, 1#16),
        (12#4, 20#5, 0#16)], q.1.toNat ≤ 12 by simp) p hp

theorem receiverInv_lastBit (half : BitVec 16) :
    ReceiverInv { assembles with bitCount := 12, zeroCrossCount := 21, bitMask := 1, profile := ⟨60, 2, 1, 1, half⟩ } := by
  constructor
  · exact show 12 ≤ 13 by decide
  · exact ⟨fun h => absurd (show (12 : BitVec 4) = 13 from h) (by decide), fun h => RxPhase.noConfusion h⟩
  · rfl
  · exact fun _ => show (0x1C00#13).getLsbD 12 = true by decide
  · intro _ j hj
    have h1 : j + 12 < 13 := hj
    obtain rfl : j = 0 := by omega
    exact show (0x1C00#13).getLsbD 0 = false by decide
  · exact show 21 + 3 = 2 * 12 by decide
  · exact fun _ => show 1 ≤ 1 ∧ 1 ≤ 1 by decide
  · exact fun h => RxPhase.noConfusion h

/-- In the offset delay of the 13th bit, with these half-cycle delays. -/
def lastBit (half : BitVec 16) : State :=
  facing (List.replicate 8 (levels false false))
    { assembles with bitCount := 12, zeroCrossCount := 21, bitMask := 1, profile := ⟨60, 2, 1, 1, half⟩ }

theorem controlInv_lastBit (half : BitVec 16) : ControlInv (lastBit half) := by
  exact controlInv_armed rfl rfl rfl rfl

theorem receiverInv_facing {s : State} (ins : List Inputs) (h : ReceiverInv s) : ReceiverInv (facing ins s) :=
  ⟨h.count_le, h.hold_iff, h.mask, h.first_bit, h.unsampled, h.cross_count, h.offset_timer, h.hold_timer⟩

theorem witness_SampleStoresTheBit :
    ControlInv assembles ∧ ReceiverInv assembles ∧ (currentInputs assembles).rst = false ∧ readsLine assembles ∧
    (∃ t, step assembles = .next t) ∧ assembles.bitCount ≠ 12 ∧
    (ControlInv (lastBit 1) ∧ ReceiverInv (lastBit 1) ∧ readsLine (lastBit 1) ∧ ∃ t, step (lastBit 1) = .next t) ∧
    (ControlInv (lastBit 0) ∧ ReceiverInv (lastBit 0) ∧ readsLine (lastBit 0) ∧ ∃ t, step (lastBit 0) = .next t) :=
  ⟨controlInv_assembles, receiverInv_assembles, by decide, .inl ⟨rfl, by decide⟩, goesOn_next (by decide), by decide,
    ⟨controlInv_lastBit 1, receiverInv_facing _ (receiverInv_lastBit 1), .inl ⟨rfl, by decide⟩, goesOn_next (by decide)⟩,
    ⟨controlInv_lastBit 0, receiverInv_facing _ (receiverInv_lastBit 0), .inl ⟨rfl, by decide⟩, goesOn_next (by decide)⟩⟩

/-- The edge of the 13th bit, sampled at once. -/
def lastEdge : State :=
  facing (List.replicate 8 (levels true false))
    { ready with bitCount := 12, zeroCrossCount := 20, bitMask := 1, profile := ⟨60, 2, 1, 0, 1⟩ }

theorem startsNow_lastEdge : startsNow lastEdge := by
  unfold startsNow edgeAt blockingNow acceptsNow
  decide

theorem witness_FrameEndsAfterFiveHalfCycles :
    (ControlInv (lastBit 1) ∧ (lastBit 1).bitCount = 12 ∧ readsLine (lastBit 1) ∧
      (currentInputs (lastBit 1)).opValid = false ∧ noReset (5 * (lastBit 1).profile.halfCycleDelayUs.toNat + 1) (lastBit 1)) ∧
    (ControlInv (lastBit 0) ∧ (lastBit 0).bitCount = 12 ∧ readsLine (lastBit 0) ∧
      (currentInputs (lastBit 0)).opValid = false ∧
      noReset (5 * (lastBit 0).profile.halfCycleDelayUs.toNat + 1) (lastBit 0)) ∧
    (ControlInv lastEdge ∧ lastEdge.bitCount = 12 ∧ startsNow lastEdge ∧ readsLine lastEdge ∧
      (currentInputs lastEdge).opValid = false ∧ noReset (5 * lastEdge.profile.halfCycleDelayUs.toNat + 1) lastEdge) :=
  ⟨⟨controlInv_lastBit 1, rfl, .inl ⟨rfl, by decide⟩, rfl, by unfold noReset; decide⟩,
    ⟨controlInv_lastBit 0, rfl, .inl ⟨rfl, by decide⟩, rfl, by unfold noReset; decide⟩,
    ⟨controlInv_armed rfl rfl rfl rfl, rfl, startsNow_lastEdge, .inr ⟨startsNow_lastEdge, .inr (.inr (by decide)), rfl⟩,
      rfl, by unfold noReset; decide⟩⟩

/-- The windows of the frame 0x1CC5 at an offset of one tick, two ticks each. -/
def windowsOf (f : Frame) : List (List Inputs) :=
  (List.range 21).map fun k =>
    let line := match bitOfSlot k with
      | some b => !f.getLsbD b
      | none => true
    List.replicate 2 (levels (k % 2 == 0) line)

theorem witness_ReceiverAssemblesTheFrame :
    ControlInv (facing (windowsOf 0x1CC5).flatten ready) ∧ ready.rxArmed = true ∧ ready.rxPhase = .idle ∧
    ready.zcPending = false ∧ ready.bitCount = 0 ∧ (0x1CC5#13).getLsbD 12 = true ∧
    showsFrame 0x1CC5 ready.profile.offsetDelayUs.toNat ready.zcPrev (windowsOf 0x1CC5) ∧
    (∃ last, (windowsOf 0x1CC5)[20]? = some last ∧ last.length = ready.profile.offsetDelayUs.toNat + 1) ∧
    (facing (windowsOf 0x1CC5).flatten ready).inputs = (windowsOf 0x1CC5).flatten ++ [] := by
  refine ⟨controlInv_armed rfl rfl rfl rfl, rfl, rfl, rfl, rfl, by decide, ⟨by decide, ?_⟩,
    ⟨_, rfl, by decide⟩, (List.append_nil _).symm⟩
  · intro k window hw
    have hk : k < 21 := by
      by_contra hk
      have : (windowsOf 0x1CC5).length ≤ k := by
        have : (windowsOf 0x1CC5).length = 21 := by decide
        omega
      rw [List.getElem?_eq_none this] at hw
      cases hw
    interval_cases k <;> cases hw <;>
      (refine ⟨by decide, by unfold slotLevels; decide, fun b inp hb hi => ?_⟩
       cases hb <;> cases hi <;> rfl)

theorem witness_PendingLatchFollowsItsCases :
    (∃ t, step (facing [levels true true] { ready with params := { sets with zcPendingLatch := false } }) = .next t) ∧
    ready.params.zcPendingLatch = true ∧
    (blockingNow calibrates ∧ ∃ t, step calibrates = .next t) ∧
    (startsNow (crossing 5 5 1) ∧ ∃ t, step (crossing 5 5 1) = .next t) ∧
    (held.rxArmed = true ∧ edgeAt held ∧ held.rxPhase ≠ .idle ∧ ∃ t, step held = .next t) ∧
    (¬ edgeAt readsHouse ∧ readsHouse.zcPending = false ∧ ∃ t, step readsHouse = .next t) := by
  refine ⟨goesOn_next (by decide), rfl, ⟨by unfold blockingNow acceptsNow; decide, goesOn_next (by decide)⟩,
    ⟨startsNow_crossing _ _ _, goesOn_next (by decide)⟩,
    ⟨rfl, by unfold edgeAt; decide, by decide, goesOn_next (by decide)⟩,
    ⟨by unfold edgeAt; decide, rfl, goesOn_next (by decide)⟩⟩

theorem witness_DisarmedReceiverTakesNoEdge :
    ControlInv sends ∧ sends.rxArmed = false ∧ (currentInputs sends).rst = false ∧ edgeAt sends ∧
    ∃ t, step sends = .next t :=
  ⟨controlInv_sends, rfl, by decide, by unfold edgeAt; decide, goesOn_next (by decide)⟩

theorem witness_BlockingOperationWinsOverTheEdge :
    (blockingNow calibrates ∧ edgeAt calibrates ∧ presentedCode calibrates = 0x1 ∧ ∃ t, step calibrates = .next t) ∧
    (blockingNow transmits ∧ edgeAt transmits ∧ presentedCode transmits = 0x2 ∧ ∃ t, step transmits = .next t) := by
  refine ⟨⟨?_, ?_, by decide, goesOn_next (by decide)⟩, ⟨?_, ?_, by decide, goesOn_next (by decide)⟩⟩
  · unfold blockingNow acceptsNow; decide
  · unfold edgeAt; decide
  · unfold blockingNow acceptsNow; decide
  · unfold edgeAt; decide

theorem witness_OnlyCalibrationWritesTheProfile :
    (currentInputs (calibrating 199)).rst = false ∧
    ∃ t, step (calibrating 199) = .next t ∧ t.calibrated ≠ (calibrating 199).calibrated := by
  refine ⟨rfl, ?_⟩
  have h : (after (calibrating 199)).map (·.calibrated) = some true := by decide
  obtain ⟨t, ht⟩ := goesOn_next (s := calibrating 199) (by decide)
  refine ⟨t, ht, ?_⟩
  have : t.calibrated = true := after_field (f := (·.calibrated)) ht h
  rw [this]
  decide

theorem witness_ResultsChangeOnlyAtTheEndOfAFrame :
    ControlInv held ∧ (currentInputs held).rst = false ∧ ∃ t, step held = .next t ∧ ¬ sameResults held t := by
  refine ⟨controlInv_held, rfl, ?_⟩
  have h : (after held).map (·.rxCommand) = some 0b00101 := by decide
  obtain ⟨t, ht⟩ := goesOn_next (s := held) (by decide)
  refine ⟨t, ht, fun hs => ?_⟩
  have : t.rxCommand = 0b00101 := after_field (f := (·.rxCommand)) ht h
  rw [hs.2.2.1] at this
  exact absurd this (by decide)

theorem witness_FlagsAreLevelTriggered :
    ControlInv held ∧ (currentInputs held).rst = false ∧ held.frameReadyFlag = false ∧ held.commandReady = false ∧
    (after held).map (fun t => (t.frameReadyFlag, t.commandReady)) = some (true, true) ∧
    ControlInv (facing [presents false 0x080000] holding) ∧
    (after (facing [presents false 0x080000] holding)).map (fun t => (t.frameReadyFlag, t.commandReady)) =
      some (false, false) := by
  refine ⟨controlInv_held, rfl, rfl, rfl, by decide, controlInv_armed rfl rfl rfl rfl, by decide⟩

/-- After reset, before any CALIBRATE, an edge and GET_HOUSE presented. -/
def waiting : State := facing [presents true 0x0A0000] fresh

theorem witness_OnlyBlockingOperationsArmAndDisarm :
    ControlInv calibrates ∧ (currentInputs calibrates).rst = false ∧
    (after calibrates).map (·.rxArmed) = some false ∧ calibrates.rxArmed = true ∧
    ControlInv ends ∧ (after ends).map (·.rxArmed) = some true ∧ ends.rxArmed = false ∧
    (ControlInv waiting ∧ (currentInputs waiting).rst = false ∧ waiting.mainState = .idle ∧ waiting.rxArmed = false ∧
      ¬ blockingNow waiting ∧ ∃ t, step waiting = .next t) :=
  ⟨controlInv_armed rfl rfl rfl rfl, rfl, by decide, rfl, controlInv_busy rfl rfl rfl (.inl rfl), by decide, rfl,
    by constructor <;> decide, rfl, rfl, rfl, by unfold blockingNow acceptsNow; decide, goesOn_next (by decide)⟩

theorem witness_LineAndLatchesBelongToTransmit :
    (currentInputs sends).rst = false ∧ (after sends).map (·.txReg) = some true ∧ sends.txReg = false ∧
    (currentInputs transmits).rst = false ∧ (after transmits).map (·.txRepeat) = some 1 ∧ transmits.txRepeat = 0 := by
  refine ⟨rfl, by decide, rfl, rfl, by decide, rfl⟩


end Sys2Proof.Tests
end

section
/-! PROOFS. What a tick without reset can do, one lemma per process: to the fields the main sequencer writes, and to the
state the receive handler finds. -/

namespace Sys2Proof.Machine

open Sys2Proof Sys2Proof.Safety

/-! ### The sequencer's side of a tick -/

theorem KeepsSequencer.withPending {s t : State} (h : KeepsSequencer s t) (latched : Bool) :
    KeepsSequencer { s with zcPending := latched } { t with zcPending := latched } := by
  cases h
  constructor
  case zcPending => rfl
  all_goals assumption

/-- The command port and the sequencer exclude each other: an idle sequencer adds nothing to what the port has left, and a
busy one finds the state as the tick began it (60_exceptions.md R268). -/
theorem mainPhase_cases {inp : Inputs} {edge : Bool} {s hosted : State}
    (h : hostPhase inp s (beginTick inp s) = .next hosted) :
    (s.mainState = .idle ∧ mainPhase edge s hosted = hosted) ∨
    (s.mainState ≠ .idle ∧ mainPhase edge s hosted = sequencerTick edge (beginTick inp s)) := by
  unfold mainPhase
  by_cases hm : s.mainState = .idle
  · exact .inl ⟨hm, if_pos hm⟩
  · obtain ⟨-, rfl⟩ | ⟨ha, -⟩ := hostPhase_cases h
    · exact .inr ⟨hm, if_neg hm⟩
    · simp [accepts, opReady, hm] at ha

/-- All that a tick without reset does to the fields the handler does not write: what the command port does where the
sequencer is idle, what the sequencer does where it is not, and the pending latch. -/
theorem step_sequencerSide {s t : State} (hr : (currentInputs s).rst = false) (h : step s = .next t) :
    (s.mainState = .idle ∧ ∃ hosted,
      hostPhase (currentInputs s) s (beginTick (currentInputs s) s) = .next hosted ∧
      KeepsSequencer { hosted with zcPending := t.zcPending } t) ∨
    (s.mainState ≠ .idle ∧
      KeepsSequencer { sequencerTick (edgeNow (currentInputs s) s) (beginTick (currentInputs s) s) with
        zcPending := t.zcPending } t) := by
  obtain ⟨hx, -⟩ | ⟨-, hosted, handled, hh, hn, rfl⟩ := step_cases h
  · rw [hr] at hx
    cases hx
  · have k := (handlerPhase_keeps hn).withPending
      (pendingPhase (edgeNow (currentInputs s) s) (blockingAccepted (currentInputs s) s) s handled).zcPending
    obtain ⟨hm, e⟩ | ⟨hm, e⟩ := mainPhase_cases (edge := edgeNow (currentInputs s) s) hh
    · rw [e] at k
      exact .inl ⟨hm, hosted, hh, k⟩
    · rw [e] at k
      exact .inr ⟨hm, k⟩

/-- A blocking operation accepted: CALIBRATE, or TRANSMIT with some operands (30_encoding.md R92). -/
theorem hostPhase_blocking {s hosted : State} (hb : blockingNow s)
    (h : hostPhase (currentInputs s) s (beginTick (currentInputs s) s) = .next hosted) :
    (presentedCode s = 0x1 ∧
      hosted = { disarm (respond true 0 (beginTick (currentInputs s) s)) with mainState := .calSync }) ∨
    (presentedCode s = 0x2 ∧ ∃ house payload reps, hosted =
      nextRepetition (latchOperands house payload reps (disarm (respond true 0 (beginTick (currentInputs s) s))))) := by
  obtain ⟨hx, hcode⟩ := hb
  obtain ⟨ha, -⟩ | ⟨-, i, hd, he⟩ := hostPhase_cases h
  · rw [(accepts_iff s).2 hx] at ha
    cases ha
  · obtain hc | hc := hcode
    · have hi : decodeCommand (currentInputs s).opWord = .ok .calibrate := by
        have : opCode (currentInputs s).opWord = 1#4 := hc
        simp [decodeCommand, this]
      rw [hi] at hd
      cases hd
      exact .inl ⟨hc, by cases he; rfl⟩
    · have hi : decodeCommand (currentInputs s).opWord = .ok (.transmit (opHouse (currentInputs s).opWord)
          (opPayload (currentInputs s).opWord) (opRepeat (currentInputs s).opWord)) := by
        have : opCode (currentInputs s).opWord = 2#4 := hc
        simp [decodeCommand, this]
      rw [hi] at hd
      cases hd
      simp only [exec, execTransmit] at he
      split at he <;> cases he
      exact .inr ⟨hc, _, _, _, rfl⟩

/-! ### The handler's side of a tick -/

/-- What the command port and the sequencer leave the handler of the receiver's state at the start of the tick. -/
structure BeforeHandler (s mid : State) : Prop where
  params : mid.params = s.params
  phase : mid.rxPhase = s.rxPhase
  timer : mid.rxTimer = s.rxTimer
  assembly : sameAssembly s mid
  results : sameResults s mid
  flags_kept : ¬ clearsNow s → sameFlags s mid
  flags_cleared : clearsNow s → mid.frameReadyFlag = false ∧ mid.commandReady = false
  /-- Only a busy sequencer, in calibration, writes the profile (10_state.md R34). -/
  profile : s.mainState = .idle → mid.profile = s.profile

/-- Which of its three parts the handler has at this tick, from the state `mid` it finds to the one it leaves. -/
def handlerPart (s mid handled : State) : Prop :=
  (startsNow s ∧ startHandler (currentInputs s).rxIn mid = .next handled) ∨
  (¬ startsNow s ∧ s.rxPhase = .idle ∧ handled = mid) ∨
  (¬ startsNow s ∧ s.rxPhase ≠ .idle ∧ continueHandler (currentInputs s).rxIn mid = .next handled)

theorem mainPhase_beforeHandler {s hosted : State} (edge : Bool)
    (h : hostPhase (currentInputs s) s (beginTick (currentInputs s) s) = .next hosted) :
    BeforeHandler s (mainPhase edge s hosted) := by
  obtain ⟨r, -, -, hkept, hcleared⟩ := hostPhase_keeps h
  have k := mainPhase_keeps edge s hosted
  exact {
    params := k.params.trans r.params
    phase := k.rxPhase.trans r.rxPhase
    timer := k.rxTimer.trans r.rxTimer
    assembly := ⟨k.bitCount.trans r.bitCount, k.zeroCrossCount.trans r.zeroCrossCount, k.bitMask.trans r.bitMask,
      k.accumulatorBuffer.trans r.accumulatorBuffer⟩
    results := ⟨k.rxHouse.trans r.rxHouse, k.rxUnit.trans r.rxUnit, k.rxCommand.trans r.rxCommand,
      k.rxStart.trans r.rxStart, k.unitPending.trans r.unitPending, k.unitHousePat.trans r.unitHousePat⟩
    flags_kept := fun hc => ⟨k.frameReadyFlag.trans (hkept hc).1, k.commandReady.trans (hkept hc).2⟩
    flags_cleared := fun hc => ⟨k.frameReadyFlag.trans (hcleared hc).1, k.commandReady.trans (hcleared hc).2⟩
    profile := fun hm => by
      obtain ⟨-, e⟩ | ⟨hn, -⟩ := mainPhase_cases (edge := edge) h
      · rw [e]
        exact r.profile
      · exact absurd hm hn }

/-- All that a tick without reset does to the receiver: the handler's part, on the state the other processes have left, and
the pending latch. -/
theorem step_handlerSide {s t : State} (hr : (currentInputs s).rst = false) (h : step s = .next t) :
    ∃ mid handled, BeforeHandler s mid ∧ handlerPart s mid handled ∧ t = { handled with zcPending := t.zcPending } := by
  obtain ⟨hosted, _, handled, hh, rfl, hpart, rfl⟩ := step_phases hr h
  exact ⟨_, handled, mainPhase_beforeHandler _ hh, hpart, rfl⟩

/-- Where the handler runs at all, the profile it reads is the one at the start of the tick (60_exceptions.md R263). -/
theorem BeforeHandler.profile_of_running {s mid : State} (b : BeforeHandler s mid) (hc : ControlInv s)
    (hrun : startsNow s ∨ s.rxPhase ≠ .idle) : mid.profile = s.profile := by
  have harmed : s.rxArmed = true := hrun.elim (fun h => h.1) hc.running_armed
  exact b.profile (hc.armed_idle harmed)

theorem BeforeHandler.samplesCrossing_iff {s mid : State} (b : BeforeHandler s mid) :
    samplesCrossing mid ↔ samplesCrossing s := by
  obtain ⟨hcount, hcross, -, -⟩ := b.assembly
  simp only [samplesCrossing, hcount, hcross]

theorem timerExpires_iff {w : Nat} (timer : BitVec w) : timerExpires timer = true ↔ timer.toNat ≤ 1 := by
  simp [timerExpires]

end Sys2Proof.Machine
end

section
/-! PROOFS. The main sequencer: what it can do from each position, the legal positions, and the profile and the operand
latches, which it writes in one place each. -/

namespace Sys2Proof.Machine

open Sys2Proof Sys2Proof.Safety

/-! ### What ends a slot and what a slot goes on to -/

/-- The frame loop (42_transmitter.md R150, R152, R157). -/
theorem nextRepetition_cases (s : State) :
    (s.txRepeat ≠ 0 ∧ nextRepetition s = startRepetition s) ∨
    (s.txRepeat = 0 ∧ nextRepetition s = rearm s) ∨
    (s.txRepeat = 0 ∧ guardWaits s.txPayload = 6 ∧
      nextRepetition s = { s with mainState := .guard, edgeCount := guardEdges }) := by
  unfold nextRepetition endRepetitions
  by_cases hrep : s.txRepeat = 0
  · rw [if_pos hrep]
    by_cases hskip : skipsGuard s.txPayload = true
    · exact .inr (.inl ⟨hrep, if_pos hskip⟩)
    · refine .inr (.inr ⟨hrep, ?_, if_neg hskip⟩)
      rw [skipsGuard_eq] at hskip
      unfold guardWaits at hskip ⊢
      split at hskip
      · exact absurd rfl hskip
      · rename_i hpay
        exact if_neg hpay
  · exact .inl ⟨hrep, if_neg hrep⟩

/-- After both halves of a bit the next one is waited for, at a legal position, or the repetition is over
(42_transmitter.md R153, R162). -/
theorem advanceBit_cases (s : State) :
    (∃ field bit, advanceBit s = waitSlot field bit .plain s ∧ (field ≠ .payload → bit.val ≤ 3)) ∨
    advanceBit s = nextRepetition { s with txHalf := .plain, txRepeat := s.txRepeat - 1 } := by
  have hpred : ∀ b : Fin 5, b ≠ 0 → (b - 1).val ≤ 3 := by decide
  unfold advanceBit
  by_cases h0 : s.txBit = 0
  · rw [if_pos h0]
    cases s.txField with
    | start => exact .inl ⟨.house, 3, rfl, fun _ => by decide⟩
    | house => exact .inl ⟨.payload, 4, rfl, fun h => absurd rfl h⟩
    | payload => exact .inr rfl
  · rw [if_neg h0]
    exact .inl ⟨s.txField, s.txBit - 1, rfl, fun _ => hpred _ h0⟩

/-- `t` waits for the next slot of the repetition, at a legal bit position if this slot had one and with no complement of the
start code, or the repetition is over (42_transmitter.md R153, R156, R162). -/
def SlotFollows (s t : State) : Prop :=
  (∃ field bit half, t = waitSlot field bit half s ∧
    ((s.txField ≠ .payload → s.txBit.val ≤ 3) → field ≠ .payload → bit.val ≤ 3) ∧ (field = .start → half = .plain)) ∨
  t = nextRepetition { s with txHalf := .plain, txRepeat := s.txRepeat - 1 }

theorem advanceSlot_follows (s : State) : SlotFollows s (advanceSlot s) := by
  have hnext : SlotFollows s (advanceBit s) :=
    (advanceBit_cases s).imp_left fun ⟨field, bit, e, hrange⟩ => ⟨field, bit, .plain, e, fun _ => hrange, fun _ => rfl⟩
  unfold advanceSlot
  split
  next => exact hnext
  next => exact hnext
  next hstart => exact .inl ⟨_, _, .complement, rfl, id, fun h => absurd h hstart⟩

/-- What a slot goes on to in one tick, whatever of its delays are 0: a pulse it drives, a gap before another pulse, or its
end with the line low (42_transmitter.md R155). -/
inductive SlotGoesOn (s : State) : State → Prop where
  | pulse (phase : Fin 3) (hlen : s.profile.bitLengthUs ≠ 0) :
      SlotGoesOn s { s with
        txReg := slotBit s, txPhase := phase, mainTimer := s.profile.bitLengthUs, mainState := .txPulse }
  | gap (phase : Fin 3) (hphase : phase ≠ 2) (hdelay : s.profile.bitDelayUs ≠ 0) :
      SlotGoesOn s { s with
        txReg := false, txPhase := phase, mainTimer := s.profile.bitDelayUs, mainState := .txGap }
  | ended (phase : Fin 3) (timer : BitVec 16) :
      SlotGoesOn s (advanceSlot { s with txReg := false, txPhase := phase, mainTimer := timer })

/-- What a slot goes on to does not depend on the line, the pulse and the timer it comes from. -/
theorem SlotGoesOn.of_update {s t : State} {line : Bool} {phase : Fin 3} {timer : BitVec 16}
    (h : SlotGoesOn { s with txReg := line, txPhase := phase, mainTimer := timer } t) : SlotGoesOn s t := by
  cases h with
  | pulse phase hlen => exact .pulse (s := s) phase hlen
  | gap phase hphase hdelay => exact .gap (s := s) phase hphase hdelay
  | ended phase timer => exact .ended (s := s) phase timer

theorem startPulse_goesOn {phase : Fin 3} {after : State → State} {s : State}
    (h : ∀ u : State, u.txPhase = phase → SlotGoesOn u (after u)) : SlotGoesOn s (startPulse phase after s) := by
  unfold startPulse
  dsimp only
  split
  · exact .of_update (h _ rfl)
  · rename_i hlen
    exact .pulse phase hlen

theorem startGap_goesOn {after : State → State} {s : State} (hphase : s.txPhase ≠ 2)
    (h : ∀ u, SlotGoesOn u (after u)) : SlotGoesOn s (startGap after s) := by
  unfold startGap
  dsimp only
  split
  · exact .of_update (phase := s.txPhase) (h _)
  · rename_i hdelay
    exact .gap s.txPhase hphase hdelay

theorem endSlot_goesOn (s : State) : SlotGoesOn s (endSlot s) := .ended s.txPhase s.mainTimer

theorem emitThird_goesOn (s : State) : SlotGoesOn s (emitThird s) := startPulse_goesOn fun u _ => endSlot_goesOn u

theorem emitSecond_goesOn (s : State) : SlotGoesOn s (emitSecond s) :=
  startPulse_goesOn fun _ hu => startGap_goesOn (by rw [hu]; decide) emitThird_goesOn

theorem emitSlot_goesOn (s : State) : SlotGoesOn s (emitSlot s) :=
  startPulse_goesOn fun _ hu => startGap_goesOn (by rw [hu]; decide) emitSecond_goesOn

theorem pulseEnds_goesOn (s : State) : SlotGoesOn s (pulseEnds s) := by
  unfold pulseEnds
  split
  · rename_i hp
    exact startGap_goesOn (by rw [hp]; decide) emitSecond_goesOn
  · rename_i hp
    exact startGap_goesOn (by rw [hp]; decide) emitThird_goesOn
  · exact endSlot_goesOn s

theorem gapEnds_goesOn (s : State) : SlotGoesOn s (gapEnds s) := by
  unfold gapEnds
  split
  · exact emitSecond_goesOn s
  · exact emitThird_goesOn s
  · exact emitThird_goesOn s

/-- What the sequencer can do in one tick, by the position it is suspended at (10_state.md R28). -/
inductive SequencerMoves (edge : Bool) (s : State) : State → Prop where
  | stays (hstill : s.mainState = .idle ∨ edge = false) : SequencerMoves edge s s
  | synchronizes (hm : s.mainState = .calSync) (hedge : edge = true) : SequencerMoves edge s (calSyncEdge s)
  | measures (hm : s.mainState = .calCount) : SequencerMoves edge s (calCountTick edge s)
  | delays (hm : s.mainState = .txPulse ∨ s.mainState = .txGap) (htimer : 1 < s.mainTimer.toNat) :
      SequencerMoves edge s { s with mainTimer := s.mainTimer - 1 }
  | emits {t : State} (hm : (s.mainState = .txWait ∧ edge = true) ∨ s.mainState = .txPulse ∨ s.mainState = .txGap)
      (hslot : SlotGoesOn s t) : SequencerMoves edge s t
  | guards (hm : s.mainState = .guard) (hedge : edge = true) : SequencerMoves edge s (guardEdge s)

theorem mainDelayTick_moves (edge : Bool) {after : State → State} {s : State}
    (hm : s.mainState = .txPulse ∨ s.mainState = .txGap) (h : ∀ u, SlotGoesOn u (after u)) :
    SequencerMoves edge s (mainDelayTick after s) := by
  unfold mainDelayTick
  split
  · exact .emits (.inr hm) (.of_update (line := s.txReg) (phase := s.txPhase) (h _))
  · rename_i hrun
    rw [timerExpires_iff, Nat.not_le] at hrun
    exact .delays hm hrun

theorem sequencerTick_moves (edge : Bool) (s : State) : SequencerMoves edge s (sequencerTick edge s) := by
  unfold sequencerTick
  split
  next hm => exact .stays (.inl hm)
  next hm =>
    cases edge with
    | false => exact .stays (.inr rfl)
    | true => exact .synchronizes hm rfl
  next hm => exact .measures hm
  next hm =>
    cases edge with
    | false => exact .stays (.inr rfl)
    | true => exact .emits (.inl ⟨hm, rfl⟩) (emitSlot_goesOn s)
  next hm => exact mainDelayTick_moves edge (.inl hm) pulseEnds_goesOn
  next hm => exact mainDelayTick_moves edge (.inr hm) gapEnds_goesOn
  next hm =>
    cases edge with
    | false => exact .stays (.inr rfl)
    | true => exact .guards hm rfl

/-- The tick of `M_CAL_COUNT`: the count of ticks goes on, and an edge is counted or, the last one, ends the measurement
(41_timing_profile.md R133). -/
theorem calCountTick_cases (edge : Bool) (s : State) :
    (edge = false ∧ calCountTick edge s = countElapsed s) ∨
    (edge = true ∧ s.edgeCount ≠ 1 ∧
      calCountTick edge s = { countElapsed s with edgeCount := s.edgeCount - 1 }) ∨
    (edge = true ∧ s.edgeCount = 1 ∧ calCountTick edge s = finishCalibrate { countElapsed s with edgeCount := 0 }) := by
  unfold calCountTick calCountEdge
  cases edge with
  | false => exact .inl ⟨rfl, rfl⟩
  | true =>
    have hlast : (countElapsed s).edgeCount - 1 = 0 ↔ s.edgeCount = 1 := sub_eq_zero
    by_cases h1 : s.edgeCount = 1
    · exact .inr (.inr ⟨rfl, h1, if_pos (hlast.2 h1)⟩)
    · exact .inr (.inl ⟨rfl, h1, if_neg fun h => h1 (hlast.1 h)⟩)

/-- An edge of the guard is counted or, the last one, ends it (42_transmitter.md R157). -/
theorem guardEdge_cases (s : State) :
    (s.edgeCount ≠ 1 ∧ guardEdge s = { s with edgeCount := s.edgeCount - 1 }) ∨
    (s.edgeCount = 1 ∧ guardEdge s = rearm { s with edgeCount := 0 }) := by
  unfold guardEdge
  have hlast : s.edgeCount - 1 = 0 ↔ s.edgeCount = 1 := sub_eq_zero
  by_cases h1 : s.edgeCount = 1
  · exact .inr ⟨h1, if_pos (hlast.2 h1)⟩
  · exact .inl ⟨h1, if_neg fun h => h1 (hlast.1 h)⟩

end Sys2Proof.Machine
end

section
/-! PROOFS. The sequencer's invariant (42_transmitter.md R162; 60_exceptions.md R262): which positions are legal, and that
every step keeps them so. -/

namespace Sys2Proof.Safety

open Sys2Proof Sys2Proof.Machine

/-! ### The legal positions -/

/-- The slot being sent is one of the 22 of a frame, and its repetition is still counted (42_transmitter.md R150, R156). -/
structure SlotLegal (s : State) : Prop where
  bit_range : s.txField ≠ .payload → s.txBit.val ≤ 3
  start_plain : s.txField = .start → s.txHalf = .plain
  repeats_left : s.txRepeat ≠ 0

section

variable {s : State}

theorem SequencerInv.slotLegal (h : SequencerInv s) (hs : sending s = true) : SlotLegal s :=
  ⟨h.bit_range hs, h.start_plain hs, h.repeats_left hs⟩

theorem sequencerInv_idle (hm : s.mainState = .idle) (hline : s.txReg = false) : SequencerInv s := by
  constructor <;> simp [hm, hline, sending]

theorem sequencerInv_calSync (hm : s.mainState = .calSync) (hline : s.txReg = false) : SequencerInv s := by
  constructor <;> simp [hm, hline, sending]

theorem sequencerInv_calCount (hm : s.mainState = .calCount) (hline : s.txReg = false)
    (hcount : 1 ≤ s.edgeCount.toNat ∧ s.edgeCount.toNat ≤ 200 ∧ 200 ≤ s.edgeCount.toNat + s.calElapsed.toNat) :
    SequencerInv s := by
  constructor
  case cal_count => exact fun _ => hcount
  all_goals simp [hm, hline, sending]

theorem sequencerInv_txWait (hm : s.mainState = .txWait) (hline : s.txReg = false) (hslot : SlotLegal s) :
    SequencerInv s := by
  constructor
  case bit_range => exact fun _ => hslot.bit_range
  case start_plain => exact fun _ => hslot.start_plain
  case repeats_left => exact fun _ => hslot.repeats_left
  all_goals simp [hm, hline]

theorem sequencerInv_txPulse (hm : s.mainState = .txPulse) (hline : s.txReg = sentBit s) (hslot : SlotLegal s)
    (htimer : 1 ≤ s.mainTimer.toNat ∧ s.mainTimer.toNat ≤ s.profile.bitLengthUs.toNat) : SequencerInv s := by
  constructor
  case pulse_level => exact fun _ => hline
  case bit_range => exact fun _ => hslot.bit_range
  case start_plain => exact fun _ => hslot.start_plain
  case repeats_left => exact fun _ => hslot.repeats_left
  case pulse_timer => exact fun _ => htimer
  all_goals simp [hm]

theorem sequencerInv_txGap (hm : s.mainState = .txGap) (hline : s.txReg = false) (hslot : SlotLegal s)
    (hphase : s.txPhase ≠ 2) (htimer : 1 ≤ s.mainTimer.toNat ∧ s.mainTimer.toNat ≤ s.profile.bitDelayUs.toNat) :
    SequencerInv s := by
  constructor
  case bit_range => exact fun _ => hslot.bit_range
  case start_plain => exact fun _ => hslot.start_plain
  case repeats_left => exact fun _ => hslot.repeats_left
  case gap_phase => exact fun _ => hphase
  case gap_timer => exact fun _ => htimer
  all_goals simp [hm, hline]

theorem sequencerInv_guard (hm : s.mainState = .guard) (hline : s.txReg = false)
    (hcount : 1 ≤ s.edgeCount.toNat ∧ s.edgeCount.toNat ≤ 6) (hpay : guardWaits s.txPayload = 6) : SequencerInv s := by
  constructor
  case guard_count => exact fun _ => ⟨hcount.1, hcount.2, hpay⟩
  all_goals simp [hm, hline, sending]

/-- Outside a pulse the line is low. -/
theorem SequencerInv.line_low (h : SequencerInv s) (hm : s.mainState ≠ .txPulse) : s.txReg = false := by
  cases hline : s.txReg with
  | false => rfl
  | true => exact absurd (h.driven_in_pulse hline) hm

/-- The start of a tick and the pending latch write nothing the invariant reads. -/
theorem sequencerInv_beginTick (inp : Inputs) (h : SequencerInv s) : SequencerInv (beginTick inp s) := by
  cases h
  constructor <;> assumption

theorem SequencerInv.withPending (latched : Bool) (h : SequencerInv s) : SequencerInv { s with zcPending := latched } := by
  cases h
  constructor <;> assumption

end

/-- The handler writes nothing the invariant reads. -/
theorem SequencerInv.of_keeps {s t : State} (h : SequencerInv s) (k : KeepsSequencer s t) : SequencerInv t := by
  have hbit : sentBit t = sentBit s := by simp only [sentBit, k.txField, k.txHalf, k.txBit, k.txHousePat, k.txPayload]
  have hsend : sending t = sending s := by simp only [sending, k.mainState]
  cases h
  constructor <;>
    simpa only [hbit, hsend, k.mainState, k.txReg, k.txField, k.txBit, k.txHalf, k.txRepeat, k.txPhase, k.mainTimer,
      k.profile, k.edgeCount, k.calElapsed, k.txPayload]

/-! ### Every move leads to a legal position -/

theorem sequencerInv_nextRepetition {s : State} (hline : s.txReg = false) : SequencerInv (nextRepetition s) := by
  obtain ⟨hrep, e⟩ | ⟨-, e⟩ | ⟨-, hpay, e⟩ := nextRepetition_cases s <;> rw [e]
  · exact sequencerInv_txWait rfl hline ⟨fun _ => le_rfl, fun _ => rfl, hrep⟩
  · exact sequencerInv_idle rfl hline
  · exact sequencerInv_guard rfl hline (show 1 ≤ guardEdges.toNat ∧ guardEdges.toNat ≤ 6 by decide) hpay

theorem sequencerInv_advanceSlot {s : State} (hline : s.txReg = false) (hslot : SlotLegal s) :
    SequencerInv (advanceSlot s) := by
  obtain ⟨field, bit, half, e, hrange, hplain⟩ | e := advanceSlot_follows s <;> rw [e]
  · exact sequencerInv_txWait rfl hline ⟨hrange hslot.bit_range, hplain, hslot.repeats_left⟩
  · exact sequencerInv_nextRepetition hline

theorem sequencerInv_of_slotGoesOn {s t : State} (h : SlotGoesOn s t) (hslot : SlotLegal s) : SequencerInv t := by
  obtain ⟨hrange, hplain, hrep⟩ := hslot
  have hpos : ∀ n : BitVec 16, n ≠ 0 → 1 ≤ n.toNat ∧ n.toNat ≤ n.toNat := fun n hn =>
    ⟨by have := BitVec.toNat_ne_iff_ne.2 hn; simp at this; omega, le_rfl⟩
  cases h with
  | pulse phase hlen =>
    exact sequencerInv_txPulse rfl (slotBit_eq_sentBit s) ⟨hrange, hplain, hrep⟩ (hpos _ hlen)
  | gap phase hphase hdelay =>
    exact sequencerInv_txGap rfl rfl ⟨hrange, hplain, hrep⟩ hphase (hpos _ hdelay)
  | ended phase timer => exact sequencerInv_advanceSlot rfl ⟨hrange, hplain, hrep⟩

/-- The saturating count of ticks goes up by one, or is at its greatest value already (10_state.md R44). -/
theorem countElapsed_calElapsed (s : State) :
    (countElapsed s).calElapsed.toNat = s.calElapsed.toNat + 1 ∨ (countElapsed s).calElapsed.toNat = 2 ^ 32 - 1 := by
  unfold countElapsed
  dsimp only
  split
  · rename_i hmax
    exact .inr (by rw [hmax]; rfl)
  · rename_i hmax
    have := BitVec.toNat_ne_iff_ne.2 hmax
    simp at this
    exact .inl (by bv_omega)

theorem sequencerInv_calCountTick {s : State} (edge : Bool) (h : SequencerInv s) (hm : s.mainState = .calCount) :
    SequencerInv (calCountTick edge s) := by
  have hline := h.line_low (by rw [hm]; decide)
  obtain ⟨hpos, hmax, hsum⟩ := h.cal_count hm
  have helapsed := countElapsed_calElapsed s
  obtain ⟨-, e⟩ | ⟨-, hne, e⟩ | ⟨-, -, e⟩ := calCountTick_cases edge s <;> rw [e]
  · refine sequencerInv_calCount hm hline ⟨hpos, hmax, ?_⟩
    show 200 ≤ s.edgeCount.toNat + (countElapsed s).calElapsed.toNat
    omega
  · have hdec : (s.edgeCount - 1).toNat = s.edgeCount.toNat - 1 ∧ 1 ≤ s.edgeCount.toNat - 1 := by
      constructor <;> bv_omega
    refine sequencerInv_calCount hm hline ?_
    show 1 ≤ (s.edgeCount - 1).toNat ∧ (s.edgeCount - 1).toNat ≤ 200 ∧
      200 ≤ (s.edgeCount - 1).toNat + (countElapsed s).calElapsed.toNat
    omega
  · exact sequencerInv_idle rfl hline

theorem sequencerInv_guardEdge {s : State} (h : SequencerInv s) (hm : s.mainState = .guard) :
    SequencerInv (guardEdge s) := by
  have hline := h.line_low (by rw [hm]; decide)
  obtain ⟨hpos, hmax, hpay⟩ := h.guard_count hm
  obtain ⟨hne, e⟩ | ⟨-, e⟩ := guardEdge_cases s <;> rw [e]
  · refine sequencerInv_guard hm hline ?_ hpay
    show 1 ≤ (s.edgeCount - 1).toNat ∧ (s.edgeCount - 1).toNat ≤ 6
    constructor <;> bv_omega
  · exact sequencerInv_idle rfl hline

/-- A delay that goes on leaves the position as it is. -/
theorem sequencerInv_delay {s : State} (h : SequencerInv s) (hm : s.mainState = .txPulse ∨ s.mainState = .txGap)
    (htimer : 1 < s.mainTimer.toNat) : SequencerInv { s with mainTimer := s.mainTimer - 1 } := by
  have hdec : (s.mainTimer - 1).toNat = s.mainTimer.toNat - 1 := by bv_omega
  have hslot : SlotLegal s := h.slotLegal (by obtain hm | hm := hm <;> simp [sending, hm])
  obtain ⟨hrange, hplain, hrep⟩ := hslot
  obtain hm | hm := hm
  · obtain ⟨-, hmax⟩ := h.pulse_timer hm
    refine sequencerInv_txPulse hm (h.pulse_level hm) ⟨hrange, hplain, hrep⟩ ?_
    show 1 ≤ (s.mainTimer - 1).toNat ∧ (s.mainTimer - 1).toNat ≤ s.profile.bitLengthUs.toNat
    omega
  · obtain ⟨-, hmax⟩ := h.gap_timer hm
    refine sequencerInv_txGap hm (h.line_low (by rw [hm]; decide)) ⟨hrange, hplain, hrep⟩ (h.gap_phase hm) ?_
    show 1 ≤ (s.mainTimer - 1).toNat ∧ (s.mainTimer - 1).toNat ≤ s.profile.bitDelayUs.toNat
    omega

/-- Each move of the sequencer keeps its invariant. -/
theorem sequencerInv_of_moves {edge : Bool} {s t : State} (m : SequencerMoves edge s t) (h : SequencerInv s) :
    SequencerInv t := by
  cases m with
  | stays hstill => exact h
  | synchronizes hm hedge =>
    refine sequencerInv_calCount rfl (h.line_low (by rw [hm]; decide)) ?_
    show 1 ≤ calEdges.toNat ∧ calEdges.toNat ≤ 200 ∧ 200 ≤ calEdges.toNat + (0#32).toNat
    decide
  | measures hm => exact sequencerInv_calCountTick edge h hm
  | delays hm htimer => exact sequencerInv_delay h hm htimer
  | emits hm hslot =>
    refine sequencerInv_of_slotGoesOn hslot (h.slotLegal ?_)
    obtain ⟨hm, -⟩ | hm | hm := hm <;> simp [sending, hm]
  | guards hm hedge => exact sequencerInv_guardEdge h hm

/-- Each operation of the host leaves an idle sequencer in a legal position. -/
theorem sequencerInv_hosted {s hosted : State} (h : SequencerInv s) (hm : s.mainState = .idle)
    (hh : hostPhase (currentInputs s) s (beginTick (currentInputs s) s) = .next hosted) : SequencerInv hosted := by
  have hline : s.txReg = false := h.line_low (by rw [hm]; decide)
  by_cases hb : blockingNow s
  · obtain ⟨-, rfl⟩ | ⟨-, house, payload, reps, rfl⟩ := hostPhase_blocking hb hh
    · exact sequencerInv_calSync rfl hline
    · exact sequencerInv_nextRepetition hline
  · obtain ⟨rest, main, -⟩ := hostPhase_keeps hh
    exact sequencerInv_idle ((main hb).mainState.trans hm) (rest.txReg.trans hline)

theorem sequencerInv_resetTick (inp : Inputs) (s : State) : SequencerInv (resetTick inp s) := sequencerInv_idle rfl rfl

theorem step_keeps_sequencerInv {s t : State} (h : SequencerInv s) (hstep : step s = .next t) : SequencerInv t := by
  cases hr : (currentInputs s).rst with
  | true =>
    rw [step_reset hr] at hstep
    cases hstep
    exact sequencerInv_resetTick _ s
  | false =>
    obtain ⟨hm, hosted, hh, k⟩ | ⟨-, k⟩ := step_sequencerSide hr hstep
    · exact ((sequencerInv_hosted h hm hh).withPending _).of_keeps k
    · exact ((sequencerInv_of_moves (sequencerTick_moves _ _) (sequencerInv_beginTick _ h)).withPending _).of_keeps k

end Sys2Proof.Safety
end

section

open Sys2Proof.Machine Sys2Proof.Safety

/-- Settles O17, move by move of the sequencer: no premise on who may be active together is needed. -/
theorem sequencerInvariantKept : Obligations.SequencerInvariantKept := by
  unfold Obligations.SequencerInvariantKept
  exact fun _ _ _ h hstep => step_keeps_sequencerInv h hstep

end

section
/-! PROOFS. The receiver's invariant (43_receiver.md R182, R202): the frame under assembly at a sample and between samples,
and that every step keeps its shape. -/

namespace Sys2Proof.Safety

open Sys2Proof Sys2Proof.Machine

/-! ### The frame under assembly -/

/-- The part of the receiver's invariant that speaks of the bits stored, and of no edge and no delay (10_state.md R35, R37;
43_receiver.md R185, R187). -/
structure Assembly (s : State) : Prop where
  mask : s.bitMask = if s.bitCount = 0 then 0 else 0x1000#13 >>> s.bitCount.toNat
  first_bit : s.bitCount ≠ 0 → s.accumulatorBuffer.getLsbD 12 = true
  unsampled : s.bitCount ≠ 0 → ∀ j, j + s.bitCount.toNat < 13 → s.accumulatorBuffer.getLsbD j = false

/-- The receiver at the tick it samples: the edge that opened the slot is counted already (43_receiver.md R186). -/
structure Sampling (s : State) : Prop where
  assembly : Assembly s
  count_le : s.bitCount.toNat ≤ 12
  fresh : s.bitCount.toNat = 0 → s.zeroCrossCount.toNat = 0 ∨ s.zeroCrossCount.toNat = 21
  in_start : 1 ≤ s.bitCount.toNat ∧ s.bitCount.toNat < 5 → s.zeroCrossCount.toNat = s.bitCount.toNat + 1
  in_data : 5 ≤ s.bitCount.toNat → s.zeroCrossCount.toNat + 3 = 2 * s.bitCount.toNat

theorem ReceiverInv.assembly {s : State} (h : ReceiverInv s) : Assembly s := ⟨h.mask, h.first_bit, h.unsampled⟩

theorem Assembly.congr {s t : State} (h : Assembly s) (hcount : t.bitCount = s.bitCount) (hmask : t.bitMask = s.bitMask)
    (hacc : t.accumulatorBuffer = s.accumulatorBuffer) : Assembly t := by
  cases h
  constructor <;> simpa only [hcount, hmask, hacc]

theorem assembly_detectStart (s : State) : Assembly (detectStart s) where
  mask := rfl
  first_bit := fun _ => show (0x1000#13).getLsbD 12 = true by decide
  unsampled := fun _ j hj => by
    show (0x1000#13).getLsbD j = false
    have hlt : j < 12 := by
      have hone : (detectStart s).bitCount.toNat = 1 := rfl
      omega
    interval_cases j <;> rfl

theorem bitCount_succ {count : BitVec 4} (h : count.toNat ≤ 12) : (count + 1).toNat = count.toNat + 1 := by bv_omega

/-- The mask has its one bit at the place of the next bit. -/
theorem mask_getLsbD (n j : Nat) : (0x1000#13 >>> n).getLsbD j = decide (n + j = 12) := by
  rw [BitVec.getLsbD_ushiftRight, show (0x1000#13) = BitVec.twoPow 13 12 from rfl, BitVec.getLsbD_twoPow]
  simp [eq_comm]

/-- Storing a bit moves the shape of the frame on by one (43_receiver.md R187). -/
theorem Assembly.storeBit {s : State} (rx : Bool) (h : Assembly s) (h0 : s.bitCount ≠ 0) (hle : s.bitCount.toNat ≤ 12) :
    Assembly (storeBit rx s) := by
  have hmask : s.bitMask = 0x1000#13 >>> s.bitCount.toNat := by rw [h.mask, if_neg h0]
  have hsucc : (Machine.storeBit rx s).bitCount.toNat = s.bitCount.toNat + 1 := bitCount_succ hle
  have hacc : ∀ j, (Machine.storeBit rx s).accumulatorBuffer.getLsbD j =
      (s.accumulatorBuffer.getLsbD j || (!rx && decide (s.bitCount.toNat + j = 12))) := by
    intro j
    cases rx with
    | true => simp [Machine.storeBit]
    | false =>
      show (s.accumulatorBuffer ||| s.bitMask).getLsbD j = _
      rw [BitVec.getLsbD_or, hmask, mask_getLsbD]
      rfl
  constructor
  · have hne : (Machine.storeBit rx s).bitCount ≠ 0 := fun hz => by rw [hz] at hsucc; simp at hsucc
    rw [if_neg hne, hsucc, BitVec.shiftRight_add, ← hmask]
    rfl
  · intro _
    rw [hacc, h.first_bit h0]
    rfl
  · intro _ j hj
    rw [hsucc] at hj
    rw [hacc, h.unsampled h0 j (by omega), decide_eq_false (by omega)]
    simp

/-! ### From one position of the handler to the next -/

section

variable {s : State}

theorem receiverInv_idle (hp : s.rxPhase = .idle) (ha : Assembly s) (hle : s.bitCount.toNat ≤ 12)
    (hcross : crossCountFits s) : ReceiverInv s where
  count_le := by omega
  hold_iff := by
    rw [hp]
    refine iff_of_false (fun h13 => ?_) (by decide)
    rw [h13] at hle
    exact absurd hle (by decide)
  mask := ha.mask
  first_bit := ha.first_bit
  unsampled := ha.unsampled
  cross_count := hcross
  offset_timer := by simp [hp]
  hold_timer := by simp [hp]

/-- A tick that has neither handler nor frame end leaves the invariant where it is. -/
theorem ReceiverInv.congr {t : State} (h : ReceiverInv s) (ha : sameAssembly s t) (hp : t.rxPhase = s.rxPhase)
    (ht : t.rxTimer = s.rxTimer) (hprofile : s.rxPhase ≠ .idle → t.profile = s.profile) : ReceiverInv t := by
  obtain ⟨hcount, hcross, hmask, hacc⟩ := ha
  have hfits : crossCountFits t ↔ crossCountFits s := by simp only [crossCountFits, hcount, hcross, hp]
  obtain ⟨h1, h2, h3, h4, h5, h6, h7, h8⟩ := h
  constructor
  case cross_count => exact hfits.2 h6
  case offset_timer =>
    intro hoff
    rw [hp] at hoff
    rw [ht, hprofile (by rw [hoff]; decide)]
    exact h7 hoff
  case hold_timer =>
    intro hhold
    rw [hp] at hhold
    rw [ht, hprofile (by rw [hhold]; decide)]
    exact h8 hhold
  all_goals simpa only [hcount, hmask, hacc, hp]

theorem ReceiverInv.count_le_of_not_hold (h : ReceiverInv s) (hp : s.rxPhase ≠ .hold) : s.bitCount.toNat ≤ 12 := by
  have hne : s.bitCount ≠ 13 := fun h13 => hp (h.hold_iff.1 h13)
  have := h.count_le
  bv_omega

/-- The offset delay ends in a sample. -/
theorem ReceiverInv.sampling_of_offset (h : ReceiverInv s) (hp : s.rxPhase = .offset) :
    Sampling { s with rxTimer := 0 } := by
  have hle := h.count_le_of_not_hold (by rw [hp]; decide)
  have hcross := h.cross_count
  simp only [crossCountFits, hp, reduceCtorEq, if_false] at hcross
  refine ⟨h.assembly.congr rfl rfl rfl, hle, fun h0 => ?_, fun h15 => ?_, fun h5 => ?_⟩ <;>
    simp only at * <;> split_ifs at hcross <;> omega

/-- A crossing that is sampled is counted before the sample. -/
theorem ReceiverInv.sampling_of_start (h : ReceiverInv s) (hp : s.rxPhase = .idle) (hs : samplesCrossing s) :
    Sampling (enterHandler s) := by
  have hle := h.count_le_of_not_hold (by rw [hp]; decide)
  have hcross := h.cross_count
  simp only [crossCountFits, hp, if_true] at hcross
  obtain ⟨h0, e⟩ | ⟨h0, e⟩ := enterHandler_cases s <;> rw [e]
  · have hz : s.bitCount.toNat = 0 := by rw [h0]; rfl
    rw [if_pos hz] at hcross
    exact ⟨h.assembly, hle, fun _ => hcross, fun h1 => by omega, fun h5 => by omega⟩
  · have hz : s.bitCount.toNat ≠ 0 := fun hz => h0 (BitVec.eq_of_toNat_eq hz)
    have hsamples : s.bitCount.toNat < 5 ∨ (s.zeroCrossCount.toNat + 1) % 2 = 1 := hs.resolve_left h0
    have hsucc : (s.zeroCrossCount + 1).toNat = s.zeroCrossCount.toNat + 1 := by
      have : s.zeroCrossCount.toNat ≤ 20 := by split_ifs at hcross <;> omega
      bv_omega
    refine ⟨h.assembly.congr rfl rfl rfl, hle, fun h1 => absurd h1 hz, fun h15 => ?_, fun h5 => ?_⟩ <;>
      simp only [hsucc] at * <;> split_ifs at hcross <;> omega

/-- A crossing that is not sampled is only counted. -/
theorem receiverInv_of_uncounted (h : ReceiverInv s) (hp : s.rxPhase = .idle) (hs : ¬ samplesCrossing s) :
    ReceiverInv (returnHandler (enterHandler s)) := by
  have hle := h.count_le_of_not_hold (by rw [hp]; decide)
  have hcross := h.cross_count
  simp only [samplesCrossing, not_or] at hs
  obtain ⟨h0, h5, heven⟩ := hs
  obtain ⟨hz, -⟩ | ⟨-, e⟩ := enterHandler_cases s
  · exact absurd hz h0
  rw [e]
  have hsucc : (s.zeroCrossCount + 1).toNat = s.zeroCrossCount.toNat + 1 := by
    simp only [crossCountFits, hp, if_true] at hcross
    have : s.zeroCrossCount.toNat ≤ 20 := by split_ifs at hcross <;> omega
    bv_omega
  refine receiverInv_idle rfl (h.assembly.congr rfl rfl rfl) hle ?_
  simp only [crossCountFits, hp, returnHandler, hsucc, if_true] at hcross ⊢
  split_ifs at hcross ⊢ <;> omega

/-- The offset delay starts, where it is not 0. -/
theorem Sampling.receiverInv_suspendOffset (h : Sampling s) (ho : s.profile.offsetDelayUs ≠ 0) :
    ReceiverInv (suspendOffset s) := by
  obtain ⟨ha, hle, hfresh, hstart, hdata⟩ := h
  have htimer : (offsetTicks s).toNat = s.profile.offsetDelayUs.toNat := by
    unfold offsetTicks
    bv_omega
  have hpos : 1 ≤ s.profile.offsetDelayUs.toNat := by bv_omega
  constructor
  case count_le => exact hle.trans (by decide)
  case hold_iff =>
    refine iff_of_false (fun h13 => ?_) nofun
    have : s.bitCount.toNat = 13 := by rw [show s.bitCount = 13 from h13]; rfl
    omega
  case mask => exact ha.mask
  case first_bit => exact ha.first_bit
  case unsampled => exact ha.unsampled
  case cross_count =>
    simp only [crossCountFits, suspendOffset, reduceCtorEq, if_false]
    split_ifs <;> omega
  case offset_timer =>
    intro _
    show 1 ≤ (offsetTicks s).toNat ∧ (offsetTicks s).toNat ≤ s.profile.offsetDelayUs.toNat
    omega
  case hold_timer => exact nofun

/-- `5 * halfCycleDelayUs` fits the 19 bits of `rxTimer`. -/
theorem holdTicks_toNat (s : State) : (holdTicks s).toNat = 5 * s.profile.halfCycleDelayUs.toNat := by
  unfold holdTicks holdHalfCycles
  bv_omega

/-- A frame that is complete leaves `Idle`, and the mask at 0 (43_receiver.md R188). -/
theorem receiverInv_frameDone (hmask : s.bitMask = 0) (hcross : s.zeroCrossCount.toNat = 21) :
    ReceiverInv (frameDone s) := by
  unfold frameDone
  refine receiverInv_idle (by simp) ⟨by simp [hmask], by simp, by simp⟩ (by simp) ?_
  simp [crossCountFits, hcross]

/-- The hold starts with the 13th bit, where it is not 0 (43_receiver.md R188). -/
theorem Sampling.receiverInv_suspendHold (rx : Bool) (h : Sampling s) (h13 : s.bitCount + 1 = 13)
    (hz : holdTicks s ≠ 0) : ReceiverInv (suspendHold (storeBit rx s)) := by
  obtain ⟨ha, hle, -, -, hdata⟩ := h
  have hcount : s.bitCount.toNat = 12 := by bv_omega
  have hstored := ha.storeBit rx (by bv_omega) hle
  have htimer := holdTicks_toNat s
  have hpos : 1 ≤ (holdTicks s).toNat := by bv_omega
  constructor
  case count_le =>
    show (s.bitCount + 1).toNat ≤ 13
    rw [h13]
    decide
  case hold_iff => exact iff_of_true h13 rfl
  case mask => exact hstored.mask
  case first_bit => exact hstored.first_bit
  case unsampled => exact hstored.unsampled
  case cross_count =>
    have h21 : s.zeroCrossCount.toNat = 21 := by omega
    have hcomplete : (suspendHold (storeBit rx s)).bitCount = 13 := h13
    simp only [crossCountFits, hcomplete]
    exact h21
  case offset_timer => exact nofun
  case hold_timer =>
    intro _
    show 1 ≤ (holdTicks s).toNat ∧ (holdTicks s).toNat ≤ 5 * s.profile.halfCycleDelayUs.toNat
    omega

/-- Whatever the sample brings, the shape of the frame is kept (43_receiver.md R183, R185, R187, R188). -/
theorem Sampling.receiverInv_sampleLine {rx : Bool} {t : State} (h : Sampling s) (hs : sampleLine rx s = .next t) :
    ReceiverInv t := by
  have ⟨ha, hle, hfresh, hstart, hdata⟩ := h
  have hsucc : (storeBit rx s).bitCount.toNat = s.bitCount.toNat + 1 := bitCount_succ hle
  obtain ⟨h0, -, rfl⟩ | ⟨h0, -, rfl⟩ | ⟨h0, h13, hz, rfl⟩ | ⟨h0, h13, hz, rfl⟩ | ⟨h0, h13, rfl⟩ := sampleLine_cases hs
  · refine receiverInv_idle rfl (ha.congr rfl rfl rfl) hle ?_
    simp only [crossCountFits, returnHandler]
    have hz : s.bitCount.toNat = 0 := by rw [h0]; rfl
    rw [if_pos hz]
    exact hfresh hz
  · exact receiverInv_idle rfl ((assembly_detectStart s).congr rfl rfl rfl) (show (1#4).toNat ≤ 12 by decide)
      (show (1#5).toNat = 1 from rfl)
  · have hstored := ha.storeBit rx h0 hle
    have hcount : s.bitCount.toNat = 12 := by bv_omega
    refine receiverInv_frameDone ?_ (show s.zeroCrossCount.toNat = 21 by omega)
    rw [hstored.mask, hsucc, hcount]
    split <;> rfl
  · exact h.receiverInv_suspendHold rx h13 hz
  · have hpos : 1 ≤ s.bitCount.toNat := by bv_omega
    have hnext : (storeBit rx s).bitCount.toNat ≤ 12 := by bv_omega
    refine receiverInv_idle rfl ((ha.storeBit rx h0 hle).congr rfl rfl rfl) hnext ?_
    show crossCountFits (returnHandler (storeBit rx s))
    simp only [crossCountFits, returnHandler_bitCount, returnHandler_zeroCrossCount, returnHandler_rxPhase,
      storeBit_zeroCrossCount, hsucc, if_true]
    rw [hsucc] at hnext
    rw [if_neg (Nat.succ_ne_zero _)]
    split_ifs <;> omega

/-! ### The parts of the handler -/

/-- A run of the handler that starts (43_receiver.md R181). -/
theorem ReceiverInv.startHandler {rx : Bool} {t : State} (h : ReceiverInv s) (hp : s.rxPhase = .idle)
    (hs : startHandler rx s = .next t) : ReceiverInv t := by
  have hprofile : (enterHandler s).profile = s.profile := (enterHandler_keeps s).profile
  obtain ⟨hcross, -, hline⟩ | ⟨hcross, ho, rfl⟩ | ⟨h0, hcross, rfl⟩ := startHandler_cases hs
  · exact (h.sampling_of_start hp ((samplesCrossing_iff s).1 hcross)).receiverInv_sampleLine hline
  · exact (h.sampling_of_start hp ((samplesCrossing_iff s).1 hcross)).receiverInv_suspendOffset (by rwa [hprofile])
  · refine receiverInv_of_uncounted h hp fun hx => ?_
    obtain hx | hx := (samplesCrossing_iff s).2 hx
    · exact h0 hx
    · rw [hcross] at hx
      cases hx

/-- A delay of the handler goes on. -/
theorem ReceiverInv.countRxTimer (h : ReceiverInv s) (ht : 1 < s.rxTimer.toNat) : ReceiverInv (countRxTimer s) := by
  have hdec : (s.rxTimer - 1).toNat = s.rxTimer.toNat - 1 := by bv_omega
  obtain ⟨h1, h2, h3, h4, h5, h6, h7, h8⟩ := h
  refine ⟨h1, h2, h3, h4, h5, h6, fun hoff => ?_, fun hhold => ?_⟩
  · have hrange := h7 hoff
    show 1 ≤ (s.rxTimer - 1).toNat ∧ (s.rxTimer - 1).toNat ≤ s.profile.offsetDelayUs.toNat
    omega
  · have hrange := h8 hhold
    show 1 ≤ (s.rxTimer - 1).toNat ∧ (s.rxTimer - 1).toNat ≤ 5 * s.profile.halfCycleDelayUs.toNat
    omega

/-- A run of the handler that goes on after a delay, or ends one (43_receiver.md R184, R188). -/
theorem ReceiverInv.continueHandler {rx : Bool} {t : State} (h : ReceiverInv s)
    (hs : continueHandler rx s = .next t) : ReceiverInv t := by
  obtain ⟨hrun, rfl⟩ | ⟨-, -, rfl⟩ | ⟨-, hp, hline⟩ | ⟨-, hp, rfl⟩ := continueHandler_cases hs
  · refine h.countRxTimer (Nat.lt_of_not_le fun hle => ?_)
    rw [(timerExpires_iff _).2 hle] at hrun
    cases hrun
  · exact h
  · exact (h.sampling_of_offset hp).receiverInv_sampleLine hline
  · have h13 : s.bitCount = 13 := h.hold_iff.2 hp
    have hmask := h.mask
    have hcross := h.cross_count
    rw [h13] at hmask
    simp only [crossCountFits, h13] at hcross
    exact receiverInv_frameDone hmask hcross

end

/-- Whichever part the handler has at a tick, it keeps the invariant. -/
theorem receiverInv_of_handlerPart {s mid handled : State} (h : ReceiverInv mid) (b : BeforeHandler s mid)
    (hpart : handlerPart s mid handled) : ReceiverInv handled := by
  obtain ⟨hstart, hs⟩ | ⟨-, -, rfl⟩ | ⟨-, -, hs⟩ := hpart
  · obtain ⟨-, hidle, -⟩ := hstart
    exact h.startHandler (b.phase.trans hidle) hs
  · exact h
  · exact h.continueHandler hs

theorem receiverInv_resetTick (inp : Inputs) (s : State) : ReceiverInv (resetTick inp s) :=
  receiverInv_idle rfl ⟨rfl, fun h => absurd rfl h, fun h => absurd rfl h⟩ (Nat.zero_le 12) (.inl rfl)

theorem step_keeps_receiverInv {s t : State} (hc : ControlInv s) (h : ReceiverInv s) (hstep : step s = .next t) :
    ReceiverInv t := by
  cases hr : (currentInputs s).rst with
  | true =>
    rw [step_reset hr] at hstep
    cases hstep
    exact receiverInv_resetTick _ s
  | false =>
    obtain ⟨mid, handled, b, hpart, ht⟩ := step_handlerSide hr hstep
    have hmid : ReceiverInv mid :=
      h.congr b.assembly b.phase b.timer fun hrun => b.profile_of_running hc (.inr hrun)
    rw [ht]
    exact (receiverInv_of_handlerPart hmid b hpart).congr ⟨rfl, rfl, rfl, rfl⟩ rfl rfl fun _ => rfl

end Sys2Proof.Safety
end

section

open Sys2Proof.Machine Sys2Proof.Safety

/-- Settles O16: the other processes leave the receiver as it is, and each part of the handler keeps the shape of the frame. -/
theorem receiverInvariantKept : Obligations.ReceiverInvariantKept := by
  unfold Obligations.ReceiverInvariantKept
  exact fun _ _ hc h hstep => step_keeps_receiverInv hc h hstep

end

section
/-! PROOFS. The result registers and the flags: they change where a frame ends and, the flags, at CLEAR_COMMAND_READY
(10_state.md R23 to R31), and what they then say of each other. -/

namespace Sys2Proof.Safety

open Sys2Proof Sys2Proof.Machine

/-! ### Where a frame ends -/

/-- All that the host can read of the frames received is the same. -/
def sameReport (s t : State) : Prop := sameResults s t ∧ sameFlags s t

theorem sameReport.refl (s : State) : sameReport s s := ⟨⟨rfl, rfl, rfl, rfl, rfl, rfl⟩, rfl, rfl⟩

theorem sameResults.trans {s t u : State} (h : sameResults s t) (k : sameResults t u) : sameResults s u := by
  obtain ⟨h1, h2, h3, h4, h5, h6⟩ := h
  obtain ⟨k1, k2, k3, k4, k5, k6⟩ := k
  exact ⟨k1.trans h1, k2.trans h2, k3.trans h3, k4.trans h4, k5.trans h5, k6.trans h6⟩

theorem sameFlags.trans {s t u : State} (h : sameFlags s t) (k : sameFlags t u) : sameFlags s u :=
  ⟨k.1.trans h.1, k.2.trans h.2⟩

theorem sameReport.trans {s t u : State} (h : sameReport s t) (k : sameReport t u) : sameReport s u :=
  ⟨h.1.trans k.1, h.2.trans k.2⟩

/-- A frame ends at this tick, by the delays of the profile `p`: the hold is over, or the 13th bit is sampled and no hold
follows (43_receiver.md R188). -/
def endsFrame (p : TimingProfile) (s : State) : Prop :=
  (s.rxPhase = .hold ∧ s.rxTimer.toNat ≤ 1) ∨
  (s.bitCount = 12 ∧
    ((s.rxPhase = .offset ∧ s.rxTimer.toNat ≤ 1) ∨ (startsNow s ∧ samplesCrossing s ∧ p.offsetDelayUs = 0)) ∧
    p.halfCycleDelayUs = 0)

/-- The state `u` whose accumulator is read when a frame ends, against the one the handler found. -/
structure FrameReadFrom (s u : State) : Prop where
  params : u.params = s.params
  report : sameReport s u
  /-- No bit of the accumulator is ever cleared by a sample (43_receiver.md R187). -/
  first_bit : s.accumulatorBuffer.getLsbD 12 = true → u.accumulatorBuffer.getLsbD 12 = true

theorem frameReadFrom_storeBit (rx : Bool) (s : State) : FrameReadFrom s (storeBit rx s) where
  params := rfl
  report := .refl s
  first_bit := fun h => by cases rx <;> simp [storeBit, h]

theorem FrameReadFrom.trans {s t u : State} (h : FrameReadFrom s t) (k : FrameReadFrom t u) : FrameReadFrom s u :=
  ⟨k.params.trans h.params, h.report.trans k.report, k.first_bit ∘ h.first_bit⟩

theorem frameReadFrom_enterHandler (s : State) : FrameReadFrom s (enterHandler s) := by
  obtain ⟨-, e⟩ | ⟨-, e⟩ := enterHandler_cases s <;> rw [e] <;> exact ⟨rfl, .refl s, id⟩

theorem enterHandler_bitCount (s : State) : (enterHandler s).bitCount = s.bitCount := by
  obtain ⟨-, e⟩ | ⟨-, e⟩ := enterHandler_cases s <;> rw [e]

/-- A sample changes results and flags only where it completes a frame without a hold. -/
theorem sampleLine_report {rx : Bool} {s t : State} (h : sampleLine rx s = .next t) :
    sameReport s t ∨
    (s.bitCount = 12 ∧ s.profile.halfCycleDelayUs = 0 ∧ ∃ u, FrameReadFrom s u ∧ t = frameDone u) := by
  obtain ⟨-, -, rfl⟩ | ⟨-, -, rfl⟩ | ⟨-, h13, hz, rfl⟩ | ⟨-, -, -, rfl⟩ | ⟨-, -, rfl⟩ := sampleLine_cases h
  case inr.inr.inl =>
    have hnone := holdTicks_toNat s
    rw [hz] at hnone
    exact .inr ⟨by bv_omega, BitVec.eq_of_toNat_eq (by simpa using hnone), _, frameReadFrom_storeBit rx s, rfl⟩
  all_goals exact .inl (.refl s)

theorem handlerPart_keeps {s mid handled : State} (hpart : handlerPart s mid handled) : KeepsSequencer mid handled := by
  obtain ⟨-, hs⟩ | ⟨-, -, rfl⟩ | ⟨-, -, hs⟩ := hpart
  · exact startHandler_keeps hs
  · exact .rfl
  · exact continueHandler_keeps hs

/-- Whichever part the handler has at a tick, it changes results and flags only where a frame ends. -/
theorem handlerPart_report {s mid handled : State} (b : BeforeHandler s mid) (hpart : handlerPart s mid handled) :
    sameReport mid handled ∨
    (endsFrame mid.profile s ∧ ∃ u, FrameReadFrom mid u ∧ handled = frameDone u) := by
  have hcount : mid.bitCount = s.bitCount := b.assembly.1
  obtain ⟨hstart, hs⟩ | ⟨-, -, rfl⟩ | ⟨-, -, hs⟩ := hpart
  · have hentered := frameReadFrom_enterHandler mid
    have hprofile : (enterHandler mid).profile = mid.profile := (enterHandler_keeps mid).profile
    obtain ⟨hcross, ho, hline⟩ | ⟨-, -, rfl⟩ | ⟨-, -, rfl⟩ := startHandler_cases hs
    · have hsamples : samplesCrossing s := b.samplesCrossing_iff.1 ((samplesCrossing_iff mid).1 hcross)
      obtain hsame | ⟨h12, hz, u, hu, rfl⟩ := sampleLine_report hline
      · exact .inl (hentered.report.trans hsame)
      · rw [enterHandler_bitCount, hcount] at h12
        rw [hprofile] at hz
        exact .inr ⟨.inr ⟨h12, .inr ⟨hstart, hsamples, ho⟩, hz⟩, u, hentered.trans hu, rfl⟩
    · exact .inl hentered.report
    · exact .inl hentered.report
  · exact .inl (.refl _)
  · obtain ⟨-, rfl⟩ | ⟨-, -, rfl⟩ | ⟨he, hp, hline⟩ | ⟨he, hp, rfl⟩ := continueHandler_cases hs
    · exact .inl (.refl _)
    · exact .inl (.refl _)
    · rw [b.timer, timerExpires_iff] at he
      rw [b.phase] at hp
      obtain hsame | ⟨h12, hz, u, ⟨hu1, hu2, hu3⟩, rfl⟩ := sampleLine_report hline
      · exact .inl hsame
      · exact .inr ⟨.inr ⟨hcount.symm.trans h12, .inl ⟨hp, he⟩, hz⟩, u, ⟨hu1, hu2, hu3⟩, rfl⟩
    · rw [b.timer, timerExpires_iff] at he
      rw [b.phase] at hp
      exact .inr ⟨.inl ⟨hp, he⟩, { mid with rxTimer := 0 }, ⟨rfl, .refl mid, id⟩, rfl⟩

/-- What a tick without reset does to results and flags, in the terms of the claims. -/
theorem step_report {s t : State} (hc : ControlInv s) (hr : (currentInputs s).rst = false) (hstep : step s = .next t) :
    (sameResults s t ∧ (¬ clearsNow s → sameFlags s t) ∧
      (clearsNow s → t.frameReadyFlag = false ∧ t.commandReady = false)) ∨
    (endsFrame s.profile s ∧ t.frameReadyFlag = true ∧ t.bitCount = 0) := by
  obtain ⟨mid, handled, b, hpart, ht⟩ := step_handlerSide hr hstep
  have hlatch : sameReport handled t := by
    rw [ht]
    exact .refl handled
  obtain hsame | ⟨hends, u, -, rfl⟩ := handlerPart_report b hpart
  · obtain ⟨hresults, hready, hcommand⟩ := hsame.trans hlatch
    exact .inl ⟨b.results.trans hresults, fun hn => (b.flags_kept hn).trans ⟨hready, hcommand⟩, fun hx =>
      ⟨hready.trans (b.flags_cleared hx).1, hcommand.trans (b.flags_cleared hx).2⟩⟩
  · have hrun : startsNow s ∨ s.rxPhase ≠ .idle := by
      obtain ⟨hp, -⟩ | ⟨-, ⟨hp, -⟩ | ⟨hstart, -⟩, -⟩ := hends
      · exact .inr (by rw [hp]; decide)
      · exact .inr (by rw [hp]; decide)
      · exact .inl hstart
    rw [b.profile_of_running hc hrun] at hends
    refine .inr ⟨hends, hlatch.2.1.trans (frameReceived_frameReadyFlag _ _ _ _), ?_⟩
    rw [ht]
    exact frameReceived_bitCount _ _ _ _

/-! ### What results and flags say of each other -/

section

variable {s : State} (start : BitVec 4) (house : HousePattern) (payload : PayloadPattern)

/-- A step that changes no result and sets no flag keeps what they say. -/
theorem ResultInv.congr {t : State} (h : ResultInv s) (hparams : t.params = s.params) (hresults : sameResults s t)
    (hready : t.frameReadyFlag = true → s.frameReadyFlag = true)
    (hcommand : t.commandReady = true → s.commandReady = true) : ResultInv t := by
  obtain ⟨h1, h2, h3, h4, h5, h6⟩ := hresults
  obtain ⟨hunit, hodd, hstart, hpending, hpair⟩ := h
  constructor
  · rwa [h2]
  · rw [h3]
    exact hodd ∘ hcommand
  · rw [h4]
    exact hstart ∘ Or.imp hready hcommand
  · rwa [h5, hparams]
  · rw [hparams, h1, h4, h5, h6]
    exact fun hmode => hpair hmode ∘ hcommand

/-- The baseline parser writes a unit of the table or a command with bit 0 = 1 (43_receiver.md R190, R191). -/
theorem resultInv_parseBaseline (hmode : s.params.strictValidation = false) (hunit : s.rxUnit.toNat ≤ 16)
    (hpending : s.unitPending = true → s.params.strictValidation = true) (hstart : start.getLsbD 3 = true) :
    ResultInv (parseBaseline start house payload s) := by
  unfold parseBaseline parseCommand parseUnit
  split
  next hkind => exact ⟨hunit, fun _ => hkind, fun _ => hstart, hpending, by simp [hmode]⟩
  next => exact ⟨romValue_p2u_le payload, nofun, fun _ => hstart, hpending, by simp [hmode]⟩

/-- The strict parser sets `commandReady` only where it completes a pair (43_receiver.md R194). -/
theorem resultInv_parseStrict (hmode : s.params.strictValidation = true) (hunit : s.rxUnit.toNat ≤ 16)
    (hstart : start.getLsbD 3 = true) : ResultInv (parseStrict start house payload s) := by
  unfold parseStrict parseStrictCommand parseStrictUnit
  dsimp only
  split
  next hkind =>
    split
    next hgood =>
      simp only [startGood, Bool.and_eq_true, beq_iff_eq] at hgood
      obtain ⟨⟨hcode, hopen⟩, rfl⟩ := hgood
      exact ⟨hunit, fun _ => hkind, fun _ => hstart, fun _ => hmode, fun _ _ =>
        ⟨hcode, hopen, patternToHouse_eq _⟩⟩
    next => exact ⟨hunit, nofun, fun _ => hstart, nofun, fun _ => nofun⟩
  next =>
    split
    next => exact ⟨romValue_p2u_le payload, nofun, fun _ => hstart, fun _ => hmode, fun _ => nofun⟩
    next => exact ⟨hunit, nofun, fun _ => hstart, nofun, fun _ => nofun⟩

/-- A frame word leaves results that fit the flags it sets, if its start nibble has the forced bit. -/
theorem ResultInv.frameReceived (h : ResultInv s) (hstart : start.getLsbD 3 = true) :
    ResultInv (frameReceived start house payload s) := by
  have hparsed : ResultInv (parseFrame start house payload { s with frameReadyFlag := true, bitCount := 0 }) := by
    unfold parseFrame
    cases hmode : s.params.strictValidation with
    | true => exact resultInv_parseStrict start house payload hmode h.unit_le hstart
    | false => exact resultInv_parseBaseline start house payload hmode h.unit_le h.pending_strict hstart
  exact hparsed.congr rfl ⟨rfl, rfl, rfl, rfl, rfl, rfl⟩ id id

end

theorem frameStart_getLsbD_3 (f : Frame) : (frameStart f).getLsbD 3 = f.getLsbD 12 := by simp [frameStart]

/-- Where a frame ends, the accumulator holds the first bit the receiver forced (43_receiver.md R185). -/
theorem ReceiverInv.first_bit_of_endsFrame {s : State} {p : TimingProfile} (h : ReceiverInv s) (he : endsFrame p s) :
    s.accumulatorBuffer.getLsbD 12 = true := by
  refine h.first_bit ?_
  obtain ⟨hp, -⟩ | ⟨h12, -⟩ := he
  · rw [h.hold_iff.2 hp]
    decide
  · rw [h12]
    decide

theorem resultInv_resetTick (inp : Inputs) (s : State) : ResultInv (resetTick inp s) := by
  constructor <;> simp [resetTick, State.resetWith]

theorem step_keeps_resultInv {s t : State} (hrecv : ReceiverInv s) (h : ResultInv s) (hstep : step s = .next t) :
    ResultInv t := by
  cases hr : (currentInputs s).rst with
  | true =>
    rw [step_reset hr] at hstep
    cases hstep
    exact resultInv_resetTick _ s
  | false =>
    obtain ⟨mid, handled, b, hpart, ht⟩ := step_handlerSide hr hstep
    have hmid : ResultInv mid := by
      by_cases hclear : clearsNow s
      · obtain ⟨hready, hcommand⟩ := b.flags_cleared hclear
        exact h.congr b.params b.results (by simp [hready]) (by simp [hcommand])
      · obtain ⟨hready, hcommand⟩ := b.flags_kept hclear
        exact h.congr b.params b.results (by simp [hready]) (by simp [hcommand])
    have hhandled : ResultInv handled := by
      obtain ⟨hresults, hready, hcommand⟩ | ⟨hends, u, hread, rfl⟩ := handlerPart_report b hpart
      · exact hmid.congr (handlerPart_keeps hpart).params hresults (by simp [hready]) (by simp [hcommand])
      · obtain ⟨hparams, ⟨hresults, hready, hcommand⟩, hfirst⟩ := hread
        refine (hmid.congr hparams hresults (by simp [hready]) (by simp [hcommand])).frameReceived _ _ _ ?_
        rw [frameStart_getLsbD_3]
        refine hfirst ?_
        rw [b.assembly.2.2.2]
        exact hrecv.first_bit_of_endsFrame hends
    rw [ht]
    exact hhandled.congr rfl ⟨rfl, rfl, rfl, rfl, rfl, rfl⟩ id id

end Sys2Proof.Safety
end

section

open Sys2Proof.Machine Sys2Proof.Safety

/-- Settles O19: the parser writes each result together with the flags that speak of it, from a frame whose first bit the
receiver has forced. -/
theorem resultInvariantKept : Obligations.ResultInvariantKept := by
  unfold Obligations.ResultInvariantKept
  exact fun _ _ hrecv h hstep => step_keeps_resultInv hrecv h hstep

/-- Settles O55: a tick that ends no frame leaves every result as it was. -/
theorem resultsChangeOnlyAtTheEndOfAFrame : Obligations.ResultsChangeOnlyAtTheEndOfAFrame := by
  unfold Obligations.ResultsChangeOnlyAtTheEndOfAFrame
  intro s t hc hr hstep hchanged
  obtain ⟨hsame, -⟩ | hframe := step_report hc hr hstep
  · exact absurd hsame hchanged
  · exact hframe

/-- Settles O56: where no frame ends, the flags are those of the step's start, or cleared. -/
theorem flagsAreLevelTriggered : Obligations.FlagsAreLevelTriggered := by
  unfold Obligations.FlagsAreLevelTriggered
  intro s t hc hr hstep ends
  obtain ⟨-, hkept, hcleared⟩ | ⟨hends, hready, -⟩ := step_report hc hr hstep
  · by_cases hclear : clearsNow s
    · obtain ⟨hready, hcommand⟩ := hcleared hclear
      simp [hclear, hready, hcommand]
    · obtain ⟨hready, hcommand⟩ := hkept hclear
      rw [hready, hcommand]
      cases s.frameReadyFlag <;> cases s.commandReady <;> simp
  · have hends : ends := hends
    simp [hready, hends]

end

section
/-! PROOFS. Who writes what outside the receiver: the profile, the line, the operand latches (10_state.md R22, R32, R34,
R43), the fields of every tick, and reset. -/

namespace Sys2Proof.Safety

open Sys2Proof Sys2Proof.Machine

/-! ### What the sequencer's moves write -/

/-- What a slot leaves as it is: the profile and the operands, but for the count of repetitions, which its end may take
down by one (42_transmitter.md R150, R154). -/
structure SlotKeeps (s t : State) : Prop where
  profile : t.profile = s.profile
  calibrated : t.calibrated = s.calibrated
  txHousePat : t.txHousePat = s.txHousePat
  txPayload : t.txPayload = s.txPayload
  txRepeat : t.txRepeat = s.txRepeat ∨ t.txRepeat = s.txRepeat - 1

theorem nextRepetition_latches (s : State) :
    (nextRepetition s).txHousePat = s.txHousePat ∧ (nextRepetition s).txPayload = s.txPayload ∧
      (nextRepetition s).txRepeat = s.txRepeat := by
  obtain ⟨-, e⟩ | ⟨-, e⟩ | ⟨-, -, e⟩ := nextRepetition_cases s <;> rw [e] <;> exact ⟨rfl, rfl, rfl⟩

theorem advanceSlot_slotKeeps (s : State) : SlotKeeps s (advanceSlot s) := by
  obtain ⟨field, bit, half, e, -⟩ | e := advanceSlot_follows s <;> rw [e]
  · exact ⟨rfl, rfl, rfl, rfl, .inl rfl⟩
  · have rest := nextRepetition_keepsRest { s with txHalf := .plain, txRepeat := s.txRepeat - 1 }
    obtain ⟨hhouse, hpay, hrep⟩ := nextRepetition_latches { s with txHalf := .plain, txRepeat := s.txRepeat - 1 }
    exact ⟨rest.profile, rest.calibrated, hhouse, hpay, .inr hrep⟩

theorem slotKeeps_of_slotGoesOn {s t : State} (h : SlotGoesOn s t) : SlotKeeps s t := by
  cases h with
  | pulse phase hlen => exact ⟨rfl, rfl, rfl, rfl, .inl rfl⟩
  | gap phase hphase hdelay => exact ⟨rfl, rfl, rfl, rfl, .inl rfl⟩
  | ended phase timer =>
    obtain ⟨h1, h2, h3, h4, h5⟩ := advanceSlot_slotKeeps { s with txReg := false, txPhase := phase, mainTimer := timer }
    exact ⟨h1, h2, h3, h4, h5⟩

/-- The last edge of a CALIBRATE, at which a profile is selected (41_timing_profile.md R133). -/
def calibrationEnds (edge : Bool) (s : State) : Prop := s.mainState = .calCount ∧ s.edgeCount = 1 ∧ edge = true

/-- The profile is written whole, of one measured time, or not at all. -/
def ProfileMoves (ends : Prop) (s t : State) : Prop :=
  (t.profile = s.profile ∧ t.calibrated = s.calibrated) ∨
  (ends ∧ t.calibrated = true ∧ ∃ elapsed, t.profile = profileOf s.params elapsed)

theorem profileMoves_of_moves {edge : Bool} {s t : State} (m : SequencerMoves edge s t) :
    ProfileMoves (calibrationEnds edge s) s t := by
  cases m with
  | stays => exact .inl ⟨rfl, rfl⟩
  | synchronizes => exact .inl ⟨rfl, rfl⟩
  | delays => exact .inl ⟨rfl, rfl⟩
  | measures hm =>
    obtain ⟨-, e⟩ | ⟨-, -, e⟩ | ⟨hedge, hlast, e⟩ := calCountTick_cases edge s <;> rw [e]
    · exact .inl ⟨rfl, rfl⟩
    · exact .inl ⟨rfl, rfl⟩
    · exact .inr ⟨⟨hm, hlast, hedge⟩, rfl, _, rfl⟩
  | emits hm hslot =>
    have k := slotKeeps_of_slotGoesOn hslot
    exact .inl ⟨k.profile, k.calibrated⟩
  | guards =>
    obtain ⟨-, e⟩ | ⟨-, e⟩ := guardEdge_cases s <;> rw [e] <;> exact .inl ⟨rfl, rfl⟩

/-- The transmit line and the operand latches are the same (10_state.md R22, R43). -/
def sameLineAndLatches (s t : State) : Prop :=
  t.txReg = s.txReg ∧ t.txHousePat = s.txHousePat ∧ t.txPayload = s.txPayload ∧ t.txRepeat = s.txRepeat

/-- The sequencer is in a slot at this tick, or at the edge that opens one (42_transmitter.md R154). -/
def inSlot (edge : Bool) (s : State) : Prop :=
  (s.mainState = .txWait ∧ edge = true) ∨ s.mainState = .txPulse ∨ s.mainState = .txGap

/-- Outside the slots the sequencer leaves the line and the operand latches alone. -/
theorem line_and_latches_of_moves {edge : Bool} {s t : State} (m : SequencerMoves edge s t) :
    sameLineAndLatches s t ∨ (inSlot edge s ∧ SlotKeeps s t) := by
  cases m with
  | stays => exact .inl ⟨rfl, rfl, rfl, rfl⟩
  | synchronizes => exact .inl ⟨rfl, rfl, rfl, rfl⟩
  | delays => exact .inl ⟨rfl, rfl, rfl, rfl⟩
  | measures =>
    obtain ⟨-, e⟩ | ⟨-, -, e⟩ | ⟨-, -, e⟩ := calCountTick_cases edge s <;> rw [e] <;> exact .inl ⟨rfl, rfl, rfl, rfl⟩
  | emits hm hslot => exact .inr ⟨hm, slotKeeps_of_slotGoesOn hslot⟩
  | guards =>
    obtain ⟨-, e⟩ | ⟨-, e⟩ := guardEdge_cases s <;> rw [e] <;> exact .inl ⟨rfl, rfl, rfl, rfl⟩

/-! ### What a tick writes -/

theorem step_profileMoves {s t : State} (hr : (currentInputs s).rst = false) (hstep : step s = .next t) :
    ProfileMoves (calibrationEnds (edgeNow (currentInputs s) s) s) s t := by
  obtain ⟨-, hosted, hh, k⟩ | ⟨-, k⟩ := step_sequencerSide hr hstep
  · obtain ⟨rest, -⟩ := hostPhase_keeps hh
    exact .inl ⟨k.profile.trans rest.profile, k.calibrated.trans rest.calibrated⟩
  · obtain ⟨hprofile, hcal⟩ | ⟨hends, hcal, elapsed, hprofile⟩ := profileMoves_of_moves
      (sequencerTick_moves (edgeNow (currentInputs s) s) (beginTick (currentInputs s) s))
    · exact .inl ⟨k.profile.trans hprofile, k.calibrated.trans hcal⟩
    · exact .inr ⟨hends, k.calibrated.trans hcal, elapsed, k.profile.trans hprofile⟩

/-- Only a TRANSMIT's acceptance writes the operand latches at the command port (42_transmitter.md R150). -/
theorem hostPhase_line_and_latches {s hosted : State}
    (h : hostPhase (currentInputs s) s (beginTick (currentInputs s) s) = .next hosted) :
    sameLineAndLatches s hosted ∨ (blockingNow s ∧ presentedCode s = 0x2 ∧ hosted.txReg = s.txReg) := by
  obtain ⟨rest, main, -⟩ := hostPhase_keeps h
  by_cases hb : blockingNow s
  · obtain ⟨-, rfl⟩ | ⟨hcode, -⟩ := hostPhase_blocking hb h
    · exact .inl ⟨rfl, rfl, rfl, rfl⟩
    · exact .inr ⟨hb, hcode, rest.txReg⟩
  · exact .inl ⟨rest.txReg, (main hb).txHousePat, (main hb).txPayload, (main hb).txRepeat⟩

theorem step_line_and_latches {s t : State} (hr : (currentInputs s).rst = false) (hstep : step s = .next t) :
    sameLineAndLatches s t ∨ (blockingNow s ∧ presentedCode s = 0x2 ∧ t.txReg = s.txReg) ∨
    (inSlot (edgeNow (currentInputs s) s) s ∧ SlotKeeps s t) := by
  obtain ⟨-, hosted, hh, k⟩ | ⟨-, k⟩ := step_sequencerSide hr hstep
  · obtain ⟨h1, h2, h3, h4⟩ | ⟨hb, hcode, hline⟩ := hostPhase_line_and_latches hh
    · exact .inl ⟨k.txReg.trans h1, k.txHousePat.trans h2, k.txPayload.trans h3, k.txRepeat.trans h4⟩
    · exact .inr (.inl ⟨hb, hcode, k.txReg.trans hline⟩)
  · obtain ⟨h1, h2, h3, h4⟩ | ⟨hslot, m⟩ := line_and_latches_of_moves
      (sequencerTick_moves (edgeNow (currentInputs s) s) (beginTick (currentInputs s) s))
    · exact .inl ⟨k.txReg.trans h1, k.txHousePat.trans h2, k.txPayload.trans h3, k.txRepeat.trans h4⟩
    · exact .inr (.inr ⟨hslot, k.profile.trans m.profile, k.calibrated.trans m.calibrated,
        k.txHousePat.trans m.txHousePat, k.txPayload.trans m.txPayload, m.txRepeat.imp k.txRepeat.trans k.txRepeat.trans⟩)

/-- The fields of every tick: the level of the line, the parameters and the model's own bookkeeping (logs 1, 2). -/
def tickMoves (s t : State) : Prop :=
  t.zcPrev = (currentInputs s).zcIn ∧ t.params = s.params ∧ t.tick = s.tick + 1 ∧ t.inputs = s.inputs.tail

theorem step_tickMoves {s t : State} (hstep : step s = .next t) : tickMoves s t := by
  cases hr : (currentInputs s).rst with
  | true =>
    rw [step_reset hr] at hstep
    cases hstep
    exact ⟨rfl, rfl, rfl, rfl⟩
  | false =>
    obtain ⟨-, hosted, hh, k⟩ | ⟨-, k⟩ := step_sequencerSide hr hstep
    · obtain ⟨rest, -⟩ := hostPhase_keeps hh
      exact ⟨k.zcPrev.trans rest.zcPrev, k.params.trans rest.params, k.tick.trans rest.tick, k.inputs.trans rest.inputs⟩
    · have m := sequencerTick_keeps (edgeNow (currentInputs s) s) (beginTick (currentInputs s) s)
      exact ⟨k.zcPrev.trans m.zcPrev, k.params.trans m.params, k.tick.trans m.tick, k.inputs.trans m.inputs⟩

/-- A measured time selects one set whole, by the 54 Hz boundary (41_timing_profile.md R136). -/
theorem profileOf_hasSet (params : Params) (elapsed : BitVec 32) :
    if (profileOf params elapsed).mainsFrequencyHz.toNat < 54 then hasSet (profileOf params elapsed) params.p50
    else hasSet (profileOf params elapsed) params.p60 := by
  have hbound : frequencyOf elapsed < freqThreshold ↔ (frequencyOf elapsed).toNat < 54 := BitVec.lt_def
  simp only [profileOf, selectedSet, hbound]
  split <;> exact ⟨rfl, rfl, rfl, rfl⟩

theorem step_keeps_profileInv {s t : State} (h : ProfileInv s) (hstep : step s = .next t) : ProfileInv t := by
  obtain ⟨-, hparams, -, -⟩ := step_tickMoves hstep
  cases hr : (currentInputs s).rst with
  | true =>
    rw [step_reset hr] at hstep
    cases hstep
    exact nofun
  | false =>
    unfold ProfileInv
    rw [hparams]
    obtain ⟨hprofile, hcal⟩ | ⟨-, -, elapsed, hprofile⟩ := step_profileMoves hr hstep
    · rw [hprofile, hcal]
      exact h
    · rw [hprofile]
      exact fun _ => profileOf_hasSet s.params elapsed

/-! ### Reset -/

theorem controlInv_resetTick (inp : Inputs) (s : State) : ControlInv (resetTick inp s) := by
  constructor <;> simp [resetTick, State.resetWith, sending]

/-- A reset tick leaves a core that is disarmed, idle and silent, with no frame, no flag and no profile. -/
theorem inv_resetTick (inp : Inputs) (s : State) : Inv (resetTick inp s) where
  control := controlInv_resetTick inp s
  receiver := receiverInv_resetTick inp s
  sequencer := sequencerInv_resetTick inp s
  profile := nofun
  result := resultInv_resetTick inp s

/-- No invariant reads the level of the line, the response port or the model's own bookkeeping. -/
theorem Inv.withTick {s : State} (h : Inv s) (level : Bool) (tick : Nat) (inputs : List Inputs) (data : RspWord)
    (hit : Bool) :
    Inv { s with zcPrev := level, tick := tick, inputs := inputs, rspData := data, rspHit := hit } := by
  obtain ⟨⟨⟩, ⟨⟩, ⟨⟩, hprofile, ⟨⟩⟩ := h
  refine ⟨?control, ?receiver, ?sequencer, hprofile, ?result⟩
  all_goals constructor <;> assumption

/-- The reset state is what a reset tick leaves, but for fields no invariant reads. -/
theorem inv_reset : Inv State.reset := (inv_resetTick default State.reset).withTick false 0 [] 0 false

end Sys2Proof.Safety
end

section

open Sys2Proof.Machine Sys2Proof.Safety

/-- Settles O11: no process writes these fields after the start of the tick. -/
theorem everyTickFollowsTheLine : Obligations.EveryTickFollowsTheLine := by
  unfold Obligations.EveryTickFollowsTheLine
  exact fun _ _ hstep => step_tickMoves hstep

/-- Settles O18: the profile is written whole, where a CALIBRATE ends, or not at all. -/
theorem profileInvariantKept : Obligations.ProfileInvariantKept := by
  unfold Obligations.ProfileInvariantKept
  exact fun _ _ h hstep => step_keeps_profileInv h hstep

/-- Settles O54: the profile and `calibrated` are written together, in the one move that ends a calibration. -/
theorem onlyCalibrationWritesTheProfile : Obligations.OnlyCalibrationWritesTheProfile := by
  unfold Obligations.OnlyCalibrationWritesTheProfile
  intro s t hr hstep hchanged
  obtain ⟨hprofile, hcal⟩ | ⟨⟨hm, hlast, hedge⟩, hcal, -⟩ := step_profileMoves hr hstep
  · simp [hprofile, hcal] at hchanged
  · exact ⟨hm, hlast, (edgeNow_iff s).1 hedge, hcal⟩

/-- Settles O58: the three things a tick can be to the line and the latches are the acceptance of a TRANSMIT, a part of a
slot, and all else. -/
theorem lineAndLatchesBelongToTransmit : Obligations.LineAndLatchesBelongToTransmit := by
  unfold Obligations.LineAndLatchesBelongToTransmit
  intro s t hr hstep
  obtain ⟨hline, hhouse, hpay, hrep⟩ | ⟨hb, hcode, hline⟩ | ⟨hslot, k⟩ := step_line_and_latches hr hstep
  · simp [hline, hhouse, hpay, hrep]
  · exact ⟨fun hne => absurd hline hne, fun _ => ⟨hb, hcode⟩, fun _ => .inl ⟨hb, hcode⟩⟩
  · refine ⟨fun _ => ?_, ?_, fun hne => .inr ⟨?_, k.txRepeat.resolve_left hne⟩⟩
    · obtain ⟨hm, hedge⟩ | hm | hm := hslot
      · exact .inr (.inr ⟨hm, (edgeNow_iff s).1 hedge⟩)
      · exact .inl hm
      · exact .inr (.inl hm)
    · rintro (hne | hne)
      · exact absurd k.txHousePat hne
      · exact absurd k.txPayload hne
    · obtain ⟨hm, -⟩ | hm | hm := hslot <;> simp [sending, hm]

/-- Settles O12: the values are those `resetTick` writes. -/
theorem resetTickGivesTheResetState : Obligations.ResetTickGivesTheResetState := by
  unfold Obligations.ResetTickGivesTheResetState
  intro s hr
  exact ⟨resetTick (currentInputs s) s, step_reset hr, rfl, rfl, rfl, rfl, rfl, rfl, rfl, rfl, rfl, rfl, rfl, rfl, rfl,
    rfl⟩

/-- Settles O13, from the invariant a reset tick leaves. -/
theorem resetStateHasTheInvariant : Obligations.ResetStateHasTheInvariant := inv_reset

/-- Settles O14: the state a reset tick leaves does not depend on the invariant of the one before. -/
theorem resetTickEstablishesTheInvariant : Obligations.ResetTickEstablishesTheInvariant := by
  unfold Obligations.ResetTickEstablishesTheInvariant
  intro s t hr hstep
  rw [step_reset hr] at hstep
  cases hstep
  exact inv_resetTick _ s

end

section
/-! PROOFS. Encoding and decoding (30_encoding.md R80, R91, R92, R94, R95), and what a received frame does by its
bits. -/

namespace Sys2Proof

theorem decode_frameOf (start : BitVec 4) (house : HousePattern) (payload : PayloadPattern) :
    decode (.frame (frameOf start house payload)) = .ok (frameInstr start house payload) := by
  simp [decode, decodeFrame]

/-- A host operation is read back through its op code and its fields, a frame word through its payload pattern. -/
theorem decode_encode (i : Instr) : decode (encode i) = .ok i := by
  cases i
  case calibrate | transmit | isCommandReady | clearCommandReady | getHouse | getUnit | getCommand | dumpTiming |
      houseToPattern | patternToHouse | unitToPattern | patternToUnit | getStart | isFrameReady =>
    simp [encode, decode, decodeCommand]
  all_goals exact decode_frameOf _ _ _

theorem encode_decodeFrame (f : Frame) : encode (decodeFrame f) = .frame f := by
  rw [decodeFrame, encode_frameInstr, frameOf_fields]

theorem decodeFrame_injective : Function.Injective decodeFrame := by
  intro f g h
  have hword : CodeWord.frame f = .frame g := by rw [← encode_decodeFrame f, ← encode_decodeFrame g, h]
  exact CodeWord.frame.inj hword

/-- Bit 0 of a frame, which says its kind, is bit 0 of its payload (30_encoding.md R81). -/
theorem framePayload_getLsbD_0 (f : Frame) : (framePayload f).getLsbD 0 = f.getLsbD 0 := by simp [framePayload]

end Sys2Proof

namespace Sys2Proof.Machine

open Sys2Proof Sys2Proof.Safety

theorem exec_decodeFrame (f : Frame) (s : State) :
    exec (decodeFrame f) s = .next (frameReceived (frameStart f) (frameHouse f) (framePayload f) s) :=
  exec_frameInstr _ _ _ s

section

variable {s : State} (start : BitVec 4) (house : HousePattern) {payload : PayloadPattern}

theorem frameReceived_unit (hmode : s.params.strictValidation = false) (hkind : payload.getLsbD 0 = false) :
    frameReceived start house payload s = unitReceived (unitOf payload) start house s := by
  simp only [frameReceived, parseFrame, parseBaseline, parseUnit, romValue_p2u, patternToHouse_eq, hmode, hkind,
    Bool.false_eq_true, if_false]
  rfl

theorem frameReceived_command (hmode : s.params.strictValidation = false) (hkind : payload.getLsbD 0 = true) :
    frameReceived start house payload s = commandReceived payload start house s := by
  simp only [frameReceived, parseFrame, parseBaseline, parseCommand, patternToHouse_eq, hmode, hkind,
    Bool.false_eq_true, if_true, if_false]
  rfl

/-- A unit frame is taken where its start nibble is good, else dropped (43_receiver.md R194). -/
theorem frameReceived_strictUnit (hmode : s.params.strictValidation = true) (hkind : payload.getLsbD 0 = false) :
    frameReceived start house payload s = strictUnitReceived (unitOf payload) start house s := by
  have hgood : startGood start = true ↔ start = 0b1110 := beq_iff_eq
  simp only [frameReceived, parseFrame, parseStrict, parseStrictUnit, strictUnitReceived, romValue_p2u,
    patternToHouse_eq, hmode, hkind, hgood, Bool.false_eq_true, if_true, if_false]
  split <;> rfl

/-- A command frame is taken where it completes a pair, else dropped (43_receiver.md R194). -/
theorem frameReceived_strictCommand (hmode : s.params.strictValidation = true) (hkind : payload.getLsbD 0 = true) :
    frameReceived start house payload s = strictCommandReceived payload start house s := by
  have hpair : (startGood start && s.unitPending && house == s.unitHousePat) = true ↔
      start = 0b1110 ∧ s.unitPending = true ∧ house = s.unitHousePat := by simp [startGood, startCode, and_assoc]
  simp only [frameReceived, parseFrame, parseStrict, parseStrictCommand, strictCommandReceived, patternToHouse_eq,
    hmode, hkind, hpair, if_true]
  split <;> rfl

end

end Sys2Proof.Machine
end

section

open Sys2Proof Sys2Proof.Machine Sys2Proof.Safety

/-- Settles O1, from the fields of a composed word. -/
theorem decodeEncodeAgree : Obligations.DecodeEncodeAgree := decode_encode

/-- Settles O2: the three fields of a frame make it up again. -/
theorem framesDecodeWithoutOverlap : Obligations.FramesDecodeWithoutOverlap := by
  unfold Obligations.FramesDecodeWithoutOverlap
  exact fun f g => ⟨encode_decodeFrame f, fun h => decodeFrame_injective h⟩

/-- Settles O3, op code by op code. -/
theorem commandWordsDecodeByOpCode : Obligations.CommandWordsDecodeByOpCode := by
  unfold Obligations.CommandWordsDecodeByOpCode
  intro w code house payload reps
  refine ⟨?_, ?_, ?_, ?_, ?_, ?_, ?_, ?_, ?_, ?_, ?_, ?_, ?_, ?_, ?_, ?_⟩
  all_goals
    intro hcode
    unfold decodeCommand
    rw [show opCode w = _ from hcode]
    rfl

/-- Settles O4, by running the decoder on the ten words. -/
theorem writtenOutWordsDecode : Obligations.WrittenOutWordsDecode := by
  unfold Obligations.WrittenOutWordsDecode
  decide

/-- Settles O35: the mode and the kind of the frame choose among the four parsers. -/
theorem frameMeaningFollowsTheBits : Obligations.FrameMeaningFollowsTheBits := by
  unfold Obligations.FrameMeaningFollowsTheBits
  intro f s start house payload
  have hexec : exec (decodeFrame f) s = .next (frameReceived start house payload s) := exec_decodeFrame f s
  have hbit : payload.getLsbD 0 = f.getLsbD 0 := framePayload_getLsbD_0 f
  rw [hexec]
  cases hmode : s.params.strictValidation <;> cases hkind : f.getLsbD 0 <;> rw [hkind] at hbit
  · rw [frameReceived_unit start house hmode hbit]
  · rw [frameReceived_command start house hmode hbit]
  · rw [frameReceived_strictUnit start house hmode hbit]
  · rw [frameReceived_strictCommand start house hmode hbit]

end

section
/-! PROOFS. The command port at one tick: a word that runs, a word that is refused, a word that is dropped
(30_encoding.md R91, R94; 70_reset_and_hazards.md R290, R300), and who arms and disarms the receiver (10_state.md
R33). -/

namespace Sys2Proof.Machine

open Sys2Proof Sys2Proof.Safety

/-! ### A word accepted -/

/-- At an acceptance both processes are idle, so the tick is the operation, the handler's start where it starts, and the
pending latch (60_exceptions.md R264). -/
theorem step_accepted {s : State} {i : Instr} (ha : acceptsNow s)
    (hd : decodeCommand (currentInputs s).opWord = .ok i) :
    step s =
      andThen (exec i (beginTick (currentInputs s) s)) (fun hosted =>
        andThen
          (if handlerStarts (edgeNow (currentInputs s) s) (isBlocking i) s then
            startHandler (currentInputs s).rxIn hosted else .next hosted)
          fun handled => .next (pendingPhase (edgeNow (currentInputs s) s) (isBlocking i) s handled)) := by
  have hacc := (accepts_iff s).2 ha
  obtain ⟨hr, -, hm, hp⟩ := ha
  simp [step, tickWith, hostPhase, blockingAccepted, mainPhase, handlerPhase, hacc, hd, hr, hm, hp]

/-- While the handler does not run, the latch never rises: it is for edges that find it busy (60_exceptions.md R265). -/
theorem pendingPhase_of_idle {s t : State} (edge blocking : Bool) (hp : s.rxPhase = .idle) (ht : t.zcPending = false) :
    pendingPhase edge blocking s t = t := by
  have hnone : nextPending edge blocking s t.zcPending = t.zcPending := by simp [nextPending, hp, ht]
  unfold pendingPhase
  rw [hnone]

/-- An accepted word is all there is to the tick where the handler does not start and no edge stays latched. -/
theorem step_accepted_alone {s : State} {i : Instr} (ha : acceptsNow s)
    (hd : decodeCommand (currentInputs s).opWord = .ok i)
    (hstart : handlerStarts (edgeNow (currentInputs s) s) (isBlocking i) s = false)
    (hlatch : isBlocking i = false → s.zcPending = false) :
    step s = exec i (beginTick (currentInputs s) s) := by
  rw [step_accepted ha hd]
  cases he : exec i (beginTick (currentInputs s) s) with
  | next t =>
    obtain ⟨-, hmain, hblock, -⟩ := command_keeps hd he
    have ht : t.zcPending = false := by
      cases hb : isBlocking i with
      | true => exact hblock hb
      | false => exact (hmain hb).zcPending.trans (hlatch hb)
    obtain ⟨-, -, -, hp⟩ := ha
    simp [andThen, hstart, pendingPhase_of_idle _ _ hp ht]
  | fault r => rfl
  | refused r => rfl

/-! ### A word refused -/

theorem step_reservedOpCode {s : State} (ha : acceptsNow s)
    (hcode : presentedCode s = 0x0 ∨ presentedCode s = 0xF) :
    step s = .refused (.reservedOpCode (presentedCode s)) := by
  have hacc := (accepts_iff s).2 ha
  obtain ⟨hr, -⟩ := ha
  have hd : decodeCommand (currentInputs s).opWord = .error (.reservedOpCode (presentedCode s)) := by
    unfold decodeCommand
    obtain h | h := hcode <;> rw [h, show opCode (currentInputs s).opWord = _ from h] <;> rfl
  simp only [step, tickWith, hostPhase, hacc, hd, hr, andThen, if_true, Bool.false_eq_true, if_false]
  rfl

/-- The profile has five fields (41_timing_profile.md R138). -/
theorem profileField_eq_none (profile : TimingProfile) {select : BitVec 3} (h : 5 ≤ select.toNat) :
    profileField profile select = none := by
  unfold profileField
  split
  case h_6 => rfl
  all_goals exact absurd h (by decide)

theorem step_reservedFieldSelect {s : State} (ha : acceptsNow s) (hcode : presentedCode s = 0x8)
    (hselect : 5 ≤ (opSelect (currentInputs s).opWord).toNat) :
    step s = .refused (.reservedFieldSelect (opSelect (currentInputs s).opWord)) := by
  have hd : decodeCommand (currentInputs s).opWord = .ok (.dumpTiming (opSelect (currentInputs s).opWord)) := by
    unfold decodeCommand
    rw [show opCode (currentInputs s).opWord = _ from hcode]
    rfl
  rw [step_accepted ha hd]
  simp [exec, execDumpTiming, profileField_eq_none _ hselect, andThen]

/-! ### A word dropped -/

theorem accepts_of_busy {inp : Inputs} {s : State} (h : s.mainState ≠ .idle ∨ s.rxPhase ≠ .idle ∨ inp.rst = true) :
    accepts inp s = false := by
  obtain h | h | h := h <;> simp [accepts, opReady, h]

/-- Where a tick does not accept a word, no part of it reads the word. -/
theorem step_withWord_of_busy {s : State} {inp : Inputs} (rest : List Inputs) (valid : Bool) (word : CommandWord)
    (hbusy : s.mainState ≠ .idle ∨ s.rxPhase ≠ .idle ∨ inp.rst = true) :
    step { s with inputs := { inp with opValid := valid, opWord := word } :: rest } =
      step { s with inputs := inp :: rest } := by
  obtain hr | hr := Bool.eq_false_or_eq_true inp.rst
  · exact Eq.trans (step_reset hr) (Eq.symm (step_reset hr))
  · exact Eq.trans (step_quiet hr (accepts_of_busy hbusy)) (Eq.symm (step_quiet hr (accepts_of_busy hbusy)))

/-! ### Arming and disarming -/

/-- A blocking operation has ended: the receiver is armed and the sequencer idle (10_state.md R33). -/
def armedIdle (s : State) : Prop := s.rxArmed = true ∧ s.mainState = .idle

theorem nextRepetition_arming (s : State) : (nextRepetition s).rxArmed = s.rxArmed ∨ armedIdle (nextRepetition s) := by
  obtain ⟨-, e⟩ | ⟨-, e⟩ | ⟨-, -, e⟩ := nextRepetition_cases s <;> rw [e]
  · exact .inl rfl
  · exact .inr ⟨rfl, rfl⟩
  · exact .inl rfl

theorem arming_of_slotGoesOn {s t : State} (h : SlotGoesOn s t) : t.rxArmed = s.rxArmed ∨ armedIdle t := by
  cases h with
  | pulse => exact .inl rfl
  | gap => exact .inl rfl
  | ended phase timer =>
    obtain ⟨field, bit, half, e, -⟩ | e :=
      advanceSlot_follows { s with txReg := false, txPhase := phase, mainTimer := timer } <;> rw [e]
    · exact .inl rfl
    · exact nextRepetition_arming _

/-- A busy sequencer arms the receiver where it ends, and never disarms it. -/
theorem arming_of_moves {edge : Bool} {s t : State} (m : SequencerMoves edge s t) :
    t.rxArmed = s.rxArmed ∨ armedIdle t := by
  cases m with
  | stays => exact .inl rfl
  | synchronizes => exact .inl rfl
  | delays => exact .inl rfl
  | emits hm hslot => exact arming_of_slotGoesOn hslot
  | measures =>
    obtain ⟨-, e⟩ | ⟨-, -, e⟩ | ⟨-, -, e⟩ := calCountTick_cases edge s <;> rw [e]
    · exact .inl rfl
    · exact .inl rfl
    · exact .inr ⟨rfl, rfl⟩
  | guards =>
    obtain ⟨-, e⟩ | ⟨-, e⟩ := guardEdge_cases s <;> rw [e]
    · exact .inl rfl
    · exact .inr ⟨rfl, rfl⟩

/-- A blocking operation disarms the receiver, but for a TRANSMIT of no repetition and no guard, which ends at once. -/
theorem hostPhase_blocking_arming {s hosted : State} (hb : blockingNow s)
    (h : hostPhase (currentInputs s) s (beginTick (currentInputs s) s) = .next hosted) :
    hosted.rxArmed = false ∨ armedIdle hosted := by
  obtain ⟨-, rfl⟩ | ⟨-, house, payload, reps, rfl⟩ := hostPhase_blocking hb h
  · exact .inl rfl
  · exact nextRepetition_arming _

/-- What a tick without reset does to `rxArmed` and, with it, to the sequencer's being idle. -/
theorem step_arming {s t : State} (hr : (currentInputs s).rst = false) (hstep : step s = .next t) :
    (s.mainState = .idle ∧ ¬ blockingNow s ∧ t.rxArmed = s.rxArmed ∧ t.mainState = .idle) ∨
    (blockingNow s ∧ (t.rxArmed = false ∨ armedIdle t)) ∨
    (s.mainState ≠ .idle ∧ (t.rxArmed = s.rxArmed ∨ armedIdle t)) := by
  obtain ⟨hm, hosted, hh, k⟩ | ⟨hm, k⟩ := step_sequencerSide hr hstep
  · by_cases hb : blockingNow s
    · have harm := hostPhase_blocking_arming hb hh
      refine .inr (.inl ⟨hb, ?_⟩)
      rw [armedIdle, k.rxArmed, k.mainState]
      exact harm
    · obtain ⟨-, hmain, -⟩ := hostPhase_keeps hh
      exact .inl ⟨hm, hb, k.rxArmed.trans (hmain hb).rxArmed, k.mainState.trans ((hmain hb).mainState.trans hm)⟩
  · have harm := arming_of_moves (sequencerTick_moves (edgeNow (currentInputs s) s) (beginTick (currentInputs s) s))
    refine .inr (.inr ⟨hm, ?_⟩)
    rw [armedIdle, k.rxArmed, k.mainState]
    exact harm

end Sys2Proof.Machine
end

section

open Sys2Proof.Machine Sys2Proof.Safety

/-- Settles O5: the word runs first, and where the handler does not start nothing follows it. -/
theorem stepRunsTheAcceptedWord : Obligations.StepRunsTheAcceptedWord := by
  unfold Obligations.StepRunsTheAcceptedWord
  intro s i ha hd inp edge
  refine ⟨step_accepted ha hd, fun hedge hlatch => ?_, fun hblock => ?_⟩
  · have hstart : handlerStarts edge (isBlocking i) s = false := by simp [handlerStarts, hedge, hlatch]
    exact step_accepted_alone ha hd hstart fun _ => hlatch
  · have hstart : handlerStarts edge (isBlocking i) s = false := by simp [handlerStarts, hblock]
    exact step_accepted_alone ha hd hstart fun hnot => by simp [hblock] at hnot

/-- Settles O7: the op codes are refused by the command port, the field selects by DUMP_TIMING. -/
theorem reservedWordsAreRefused : Obligations.ReservedWordsAreRefused := by
  unfold Obligations.ReservedWordsAreRefused
  exact fun _ ha => ⟨step_reservedOpCode ha, step_reservedFieldSelect ha⟩

/-- Settles O9: a word is read only where it is accepted. -/
theorem wordsPresentedWhileBusyAreDropped : Obligations.WordsPresentedWhileBusyAreDropped := by
  unfold Obligations.WordsPresentedWhileBusyAreDropped
  intro s inp rest valid word hin hbusy
  rw [step_withWord_of_busy rest valid word hbusy, ← hin]

/-- Settles O57: `rxArmed` has three writers, the two acceptances and the sequencer's end. -/
theorem onlyBlockingOperationsArmAndDisarm : Obligations.OnlyBlockingOperationsArmAndDisarm := by
  unfold Obligations.OnlyBlockingOperationsArmAndDisarm
  intro s t _ hr hstep
  obtain ⟨hm, hb, harmed, hidle⟩ | ⟨hb, harm⟩ | ⟨hm, harm⟩ := step_arming hr hstep
  · refine ⟨fun hup hdown => ?_, fun hdown hup => ?_, fun _ _ => hidle⟩
    · simp [harmed, hup] at hdown
    · simp [harmed, hdown] at hup
  · refine ⟨fun _ _ => hb, fun _ hup => ⟨.inr hb, ?_⟩, fun _ hn => absurd hb hn⟩
    obtain hdown | ⟨-, hidle⟩ := harm
    · simp [hdown] at hup
    · exact hidle
  · refine ⟨fun hup hdown => ?_, fun hdown hup => ⟨.inl hm, ?_⟩, fun h => absurd h hm⟩
    all_goals obtain hsame | ⟨hon, hidle⟩ := harm
    · simp [hsame, hup] at hdown
    · simp [hon] at hdown
    · simp [hsame, hdown] at hup
    · exact hidle

end

section
/-! PROOFS. The code tables (40_code_tables.md R110 to R120): where a lookup hits and what it answers, and that the two
tables of each pair invert each other. -/

namespace Sys2Proof.Machine

open Sys2Proof Sys2Proof.Safety

/-! ### A read, its hit bit and its value -/

theorem romRead_eq (table : RomTable) (addr : BitVec 5) :
    romRead table addr = if romHit table addr then some (romValue table addr) else none := by
  unfold romHit romValue
  cases romRead table addr <;> rfl

theorem romRead_eq_some_iff {table : RomTable} {addr entry : BitVec 5} :
    romRead table addr = some entry ↔ romHit table addr = true ∧ romValue table addr = entry := by
  rw [romRead_eq]
  cases romHit table addr <;> simp

theorem romValue_of_miss {table : RomTable} {addr : BitVec 5} (hmiss : romHit table addr = false) :
    romValue table addr = 0 := by
  have hnone : romRead table addr = none := Option.not_isSome_iff_eq_none.mp (by simpa [romHit] using hmiss)
  rw [romValue, hnone, Option.getD_none]

theorem respondLookup_hit {table : RomTable} {addr : BitVec 5} (hhit : romHit table addr = true) (s : State) :
    respondLookup table addr s = respond true ((romValue table addr).setWidth 32) s := by
  rw [respondLookup, hhit]

theorem respondLookup_miss {table : RomTable} {addr : BitVec 5} (hmiss : romHit table addr = false) (s : State) :
    respondLookup table addr s = respond false 0 s := by
  rw [respondLookup, hmiss, romValue_of_miss hmiss]
  rfl

/-- A lookup whose hits are the addresses with `p`. -/
theorem next_respondLookup {table : RomTable} {addr entry : BitVec 5} {p : Prop} [Decidable p]
    (hhit : romHit table addr = true ↔ p) (hentry : romHit table addr = true → romValue table addr = entry)
    (s : State) :
    (.next (respondLookup table addr s) : Out) =
      if p then .next (respond true (entry.setWidth 32) s) else .next (respond false 0 s) := by
  by_cases hp : p
  · have hhit : romHit table addr = true := hhit.mpr hp
    rw [if_pos hp, respondLookup_hit hhit, hentry hhit]
  · have hmiss : romHit table addr = false := Bool.eq_false_of_not_eq_true fun h => hp (hhit.mp h)
    rw [if_neg hp, respondLookup_miss hmiss]

/-! ### Where each table hits, and its entries -/

/-- No house is missed (40_code_tables.md R111). -/
theorem romHit_h2p : ∀ house : HouseCode, romHit .h2p (house.setWidth 5) = true := by decide

/-- No house pattern is missed (40_code_tables.md R112). -/
theorem romHit_p2h : ∀ pattern : HousePattern, romHit .p2h (pattern.setWidth 5) = true := by decide

theorem romValue_h2p : ∀ house : HouseCode,
    romValue .h2p (house.setWidth 5) = (housePatternOf house).setWidth 5 := by decide

theorem romValue_p2h : ∀ pattern : HousePattern,
    romValue .p2h (pattern.setWidth 5) = (houseOf pattern).setWidth 5 := by decide

theorem romHit_u2p_iff (number : BitVec 5) :
    romHit .u2p number = true ↔ 1 ≤ number.toNat ∧ number.toNat ≤ 16 := by
  simp [romHit_u2p, BitVec.le_def]

theorem romHit_p2u_iff (pattern : PayloadPattern) : romHit .p2u pattern = true ↔ pattern.getLsbD 0 = false := by
  rw [romHit_p2u, Bool.not_eq_true']

theorem romValue_u2p_of_hit {number : BitVec 5} (hhit : romHit .u2p number = true) :
    romValue .u2p number = unitPatternOf number := by
  rw [romValue_u2p, ← romHit_u2p, if_pos hhit]

theorem romValue_p2u_of_hit {pattern : PayloadPattern} (hhit : romHit .p2u pattern = true) :
    romValue .p2u pattern = unitOf pattern := by
  rw [romValue_p2u, (romHit_p2u_iff pattern).mp hhit, if_neg Bool.false_ne_true]

/-! ### The pairs of tables -/

theorem patternToHouse_houseToPattern : Function.LeftInverse patternToHouse houseToPattern := by
  unfold Function.LeftInverse
  decide

/-- An injection of the 16 houses into the 16 patterns leaves no pattern out. -/
theorem houseToPattern_bijective : Function.Bijective houseToPattern :=
  Finite.injective_iff_bijective.mp patternToHouse_houseToPattern.injective

/-- What `U2P` reads for a unit, `P2U` reads back (40_code_tables.md R120 (b)). -/
theorem romRead_p2u_of_u2p : ∀ unit : BitVec 5, romHit .u2p unit = true →
    romRead .p2u (romValue .u2p unit) = some unit := by decide

/-- What `P2U` reads for a pattern, `U2P` reads back. -/
theorem romRead_u2p_of_p2u : ∀ pattern : PayloadPattern, romHit .p2u pattern = true →
    romRead .u2p (romValue .p2u pattern) = some pattern := by decide

/-- The two unit tables hold the same pairs. -/
theorem romRead_u2p_iff_p2u {unit : BitVec 5} {pattern : PayloadPattern} :
    romRead .u2p unit = some pattern ↔ romRead .p2u pattern = some unit := by
  constructor
  all_goals
    intro hread
    obtain ⟨hhit, rfl⟩ := romRead_eq_some_iff.mp hread
  · exact romRead_p2u_of_u2p unit hhit
  · exact romRead_u2p_of_p2u pattern hhit

/-- The pattern of a unit is the pattern of no other. -/
theorem romRead_u2p_unique {unit other : BitVec 5} {pattern : PayloadPattern}
    (hunit : romRead .u2p unit = some pattern) (hother : romRead .u2p other = some pattern) : other = unit := by
  rw [romRead_u2p_iff_p2u] at hunit hother
  exact Option.some.inj (hother.symm.trans hunit)

/-- The patterns of units are those with bit 0 = 0 (40_code_tables.md R120 (d)). -/
theorem getLsbD_zero_iff_unit (pattern : PayloadPattern) :
    pattern.getLsbD 0 = false ↔ ∃ unit, romRead .u2p unit = some pattern := by
  rw [← romHit_p2u_iff, romHit, Option.isSome_iff_exists]
  exact exists_congr fun _ => romRead_u2p_iff_p2u.symm

end Sys2Proof.Machine

namespace Sys2Proof

/-- The four lookups among the op codes (30_encoding.md R92). -/
theorem decodeCommand_lookup (w : CommandWord) :
    (w.extractLsb' 17 4 = 0x9 → decodeCommand w = .ok (.houseToPattern (w.extractLsb' 13 4))) ∧
    (w.extractLsb' 17 4 = 0xA → decodeCommand w = .ok (.patternToHouse (w.extractLsb' 13 4))) ∧
    (w.extractLsb' 17 4 = 0xB → decodeCommand w = .ok (.unitToPattern (w.extractLsb' 8 5))) ∧
    (w.extractLsb' 17 4 = 0xC → decodeCommand w = .ok (.patternToUnit (w.extractLsb' 8 5))) := by
  obtain ⟨-, -, -, -, -, -, -, -, -, h9, hA, hB, hC, -, -, -⟩ := commandWordsDecodeByOpCode w
  exact ⟨h9, hA, hB, hC⟩

/-- The payload pattern 00101 is ON (40_code_tables.md R120 (e)). -/
theorem decodeFrame_on (start : BitVec 4) (house : HousePattern) :
    decodeFrame (frameOf start house 0b00101) = .fOn start house := by
  rw [decodeFrame, frameStart_frameOf, frameHouse_frameOf, framePayload_frameOf]
  rfl

end Sys2Proof

namespace Sys2Proof.Machine

open Sys2Proof Sys2Proof.Safety

/-! ### The four lookups -/

theorem exec_houseToPattern (house : HouseCode) (s : State) :
    exec (.houseToPattern house) s = .next (respondLookup .h2p (house.setWidth 5) s) := rfl

theorem exec_patternToHouse (pattern : HousePattern) (s : State) :
    exec (.patternToHouse pattern) s = .next (respondLookup .p2h (pattern.setWidth 5) s) := rfl

theorem exec_unitToPattern (number : BitVec 5) (s : State) :
    exec (.unitToPattern number) s = .next (respondLookup .u2p number s) := rfl

theorem exec_patternToUnit (pattern : PayloadPattern) (s : State) :
    exec (.patternToUnit pattern) s = .next (respondLookup .p2u pattern s) := rfl

end Sys2Proof.Machine
end

section

open Sys2Proof Sys2Proof.Machine Sys2Proof.Safety

/-- Settles O23: a house is always a hit, and its pattern fits the ROM's 5 bits. -/
theorem houseToPatternLooksUp : Obligations.HouseToPatternLooksUp := by
  unfold Obligations.HouseToPatternLooksUp
  refine ⟨fun w => ?_, fun house s => ?_⟩
  · obtain ⟨hdecode, -, -, -⟩ := decodeCommand_lookup w
    exact hdecode
  · rw [exec_houseToPattern, respondLookup_hit (romHit_h2p house), romValue_h2p,
      BitVec.setWidth_setWidth (by decide)]
    rfl

/-- Settles O24: a house pattern is always a hit, and its house fits the ROM's 5 bits. -/
theorem patternToHouseLooksUp : Obligations.PatternToHouseLooksUp := by
  unfold Obligations.PatternToHouseLooksUp
  refine ⟨fun w => ?_, fun pattern s => ?_⟩
  · obtain ⟨-, hdecode, -, -⟩ := decodeCommand_lookup w
    exact hdecode
  · rw [exec_patternToHouse, respondLookup_hit (romHit_p2h pattern), romValue_p2h,
      BitVec.setWidth_setWidth (by decide)]
    rfl

/-- Settles O25: `U2P` hits for the units and for no other number. -/
theorem unitToPatternLooksUp : Obligations.UnitToPatternLooksUp := by
  unfold Obligations.UnitToPatternLooksUp
  refine ⟨fun w => ?_, fun number s => ?_⟩
  · obtain ⟨-, -, hdecode, -⟩ := decodeCommand_lookup w
    exact hdecode
  · rw [exec_unitToPattern]
    exact next_respondLookup (romHit_u2p_iff number) romValue_u2p_of_hit s

/-- Settles O26: `P2U` hits for the patterns of units and for no other. -/
theorem patternToUnitLooksUp : Obligations.PatternToUnitLooksUp := by
  unfold Obligations.PatternToUnitLooksUp
  refine ⟨fun w => ?_, fun pattern s => ?_⟩
  · obtain ⟨-, -, -, hdecode⟩ := decodeCommand_lookup w
    exact hdecode
  · rw [exec_patternToUnit]
    exact next_respondLookup (romHit_p2u_iff pattern) romValue_p2u_of_hit s

/-- Settles O27: the tables of each pair invert each other, and a pattern is a unit's where `P2U` hits. -/
theorem codeTablesAreBijective : Obligations.CodeTablesAreBijective := by
  unfold Obligations.CodeTablesAreBijective
  refine ⟨patternToHouse_houseToPattern, fun unit hlow hhigh => ?_, ⟨houseToPattern_bijective, by decide⟩,
    fun pattern => ?_, ⟨by decide, decodeFrame_on⟩, by decide⟩
  · have hhit : romHit .u2p unit = true := (romHit_u2p_iff unit).mpr ⟨hlow, hhigh⟩
    exact ⟨romValue .u2p unit, romRead_eq_some_iff.mpr ⟨hhit, rfl⟩, romRead_p2u_of_u2p unit hhit⟩
  · rw [getLsbD_zero_iff_unit]
    constructor
    · rintro ⟨unit, hread⟩
      obtain ⟨hhit, -⟩ := romRead_eq_some_iff.mp hread
      obtain ⟨hlow, hhigh⟩ := (romHit_u2p_iff unit).mp hhit
      exact ⟨unit, hlow, hhigh, hread, fun _ => romRead_u2p_unique hread⟩
    · rintro ⟨unit, -, -, hread, -⟩
      exact ⟨unit, hread⟩

end

section
/-! PROOFS. Calibration and the profile (41_timing_profile.md R133 to R138): what CALIBRATE and DUMP_TIMING do at acceptance,
the set a measured time selects, and a whole measurement from its first edge to its last. -/

namespace Sys2Proof.Machine

open Sys2Proof Sys2Proof.Safety

/-! ### The two operations -/

theorem exec_calibrate (s : State) :
    exec .calibrate s = .next { disarm (respond true 0 s) with mainState := .calSync } := rfl

theorem exec_dumpTiming_field {s : State} {select : BitVec 3} {value : RspWord}
    (h : profileField s.profile select = some value) : exec (.dumpTiming select) s = .next (respond true value s) := by
  simp [exec, execDumpTiming, h]

theorem exec_dumpTiming_reserved (s : State) {select : BitVec 3} (h : 5 ≤ select.toNat) :
    exec (.dumpTiming select) s = .refused (.reservedFieldSelect select) := by
  simp [exec, execDumpTiming, profileField_eq_none s.profile h]

/-! ### The measured time and the set it selects -/

/-- The count of ticks stops at its last value (10_state.md R44). -/
theorem countElapsed_toNat (s : State) :
    (countElapsed s).calElapsed.toNat = min (s.calElapsed.toNat + 1) (2 ^ 32 - 1) := by
  unfold countElapsed
  by_cases hfull : s.calElapsed = BitVec.allOnes 32
  · simp [hfull]
  · have hroom : s.calElapsed.toNat ≠ 2 ^ 32 - 1 := fun h => hfull (BitVec.eq_of_toNat_eq (by simpa using h))
    have hbound := s.calElapsed.isLt
    have hone : (1#32).toNat = 1 := rfl
    simp only [hfull, if_false, BitVec.toNat_add, BitVec.ofNat_eq_ofNat, hone]
    omega

theorem frequencyOf_toNat (elapsed : BitVec 32) : (frequencyOf elapsed).toNat = 100000000 / elapsed.toNat :=
  BitVec.toNat_udiv

/-- The 54 Hz boundary, in ticks (41_timing_profile.md R136). -/
theorem quotient_lt_54_iff {e : Nat} (he : 0 < e) : 100000000 / e < 54 ↔ 1851852 ≤ e := by
  rw [Nat.div_lt_iff_lt_mul he]
  omega

/-- A calibration is over and has measured `e` ticks: the quotient, the set it selects whole, armed and idle
(41_timing_profile.md R133, "at t2"). -/
structure Measured (params : Params) (e : Nat) (t : State) : Prop where
  idle : t.mainState = .idle
  calibrated : t.calibrated = true
  armed : t.rxArmed = true
  elapsed : t.calElapsed.toNat = e
  frequency : t.profile.mainsFrequencyHz.toNat = 100000000 / e
  set_p50 : 1851852 ≤ e → hasSet t.profile params.p50
  set_p60 : e ≤ 1851851 → hasSet t.profile params.p60

theorem measured_finishCalibrate {s : State} (hpos : 0 < s.calElapsed.toNat) :
    Measured s.params s.calElapsed.toNat (finishCalibrate s) := by
  have hfreq : (profileOf s.params s.calElapsed).mainsFrequencyHz.toNat = 100000000 / s.calElapsed.toNat :=
    frequencyOf_toNat _
  have hset := profileOf_hasSet s.params s.calElapsed
  simp only [hfreq, quotient_lt_54_iff hpos] at hset
  refine ⟨rfl, rfl, rfl, rfl, hfreq, fun hslow => ?_, fun hfast => ?_⟩
  · rwa [if_pos hslow] at hset
  · rwa [if_neg (by omega)] at hset

theorem Measured.withPending {params : Params} {e : Nat} {t : State} (h : Measured params e t) (latched : Bool) :
    Measured params e { t with zcPending := latched } := by
  cases h
  constructor <;> assumption

/-! ### One tick of a calibration -/

/-- No part of the receiver is active (60_exceptions.md R263, R266). -/
structure Disarmed (s : State) : Prop where
  armed : s.rxArmed = false
  phase : s.rxPhase = .idle
  pending : s.zcPending = false

theorem disarmed_of_busy {s : State} (hc : ControlInv s) (hm : s.mainState ≠ .idle) : Disarmed s := by
  have harmed : ¬ s.rxArmed = true := fun h => hm (hc.armed_idle h)
  refine ⟨by simpa using harmed, ?_, ?_⟩
  · by_contra hrun
    exact harmed (hc.running_armed hrun)
  · by_contra hlatched
    exact harmed (hc.pending_armed (by simpa using hlatched)).1

/-- The sequencer is in a CALIBRATE. -/
def calibrating (s : State) : Prop := s.mainState = .calSync ∨ s.mainState = .calCount

theorem busy_of_calibrating {s : State} (hm : calibrating s) : s.mainState ≠ .idle := by
  obtain hm | hm := hm <;> simp [hm]

theorem Disarmed.controlInv {s : State} (h : Disarmed s) (hm : calibrating s) : ControlInv s := by
  obtain ⟨ha, hp, hz⟩ := h
  obtain hm | hm := hm <;> constructor <;> simp [ha, hp, hz, hm, sending]

/-- A busy core does not stop: its tick is the sequencer's. -/
theorem step_busy {s : State} (hc : ControlInv s) (hr : (currentInputs s).rst = false) (hm : s.mainState ≠ .idle) :
    step s = .next
      { sequencerTick (edgeNow (currentInputs s) s) (beginTick (currentInputs s) s) with zcPending := false } := by
  obtain ⟨handled, hh⟩ := handlerPhase_next (currentInputs s) (edgeNow (currentInputs s) s) false s
    (mainPhase (edgeNow (currentInputs s) s) s (beginTick (currentInputs s) s))
  have hnext : step s = .next (pendingPhase (edgeNow (currentInputs s) s) false s handled) := by
    rw [step_quiet hr (accepts_of_busy (.inl hm)), hh]
    rfl
  rw [hnext, busy_step hc hr hm hnext]

/-- What a calibration leaves as it is: the parameters, the line and the receiver but for its being armed. -/
structure CalibrationKeeps (s t : State) : Prop where
  params : t.params = s.params
  txReg : t.txReg = s.txReg
  rxPhase : t.rxPhase = s.rxPhase
  assembly : sameAssembly s t
  report : sameReport s t

theorem CalibrationKeeps.refl (s : State) : CalibrationKeeps s s := ⟨rfl, rfl, rfl, ⟨rfl, rfl, rfl, rfl⟩, .refl s⟩

theorem CalibrationKeeps.trans {s t u : State} (h : CalibrationKeeps s t) (k : CalibrationKeeps t u) :
    CalibrationKeeps s u := by
  obtain ⟨h1, h2, h3, h4⟩ := h.assembly
  obtain ⟨k1, k2, k3, k4⟩ := k.assembly
  exact ⟨k.params.trans h.params, k.txReg.trans h.txReg, k.rxPhase.trans h.rxPhase,
    ⟨k1.trans h1, k2.trans h2, k3.trans h3, k4.trans h4⟩, h.report.trans k.report⟩

theorem step_calibrationKeeps {s t : State} (hc : ControlInv s) (hr : (currentInputs s).rst = false)
    (hm : calibrating s) (hstep : step s = .next t) : CalibrationKeeps s t := by
  have hline : t.txReg = s.txReg := by
    obtain ⟨hsame, -⟩ | ⟨-, -, hsame⟩ | ⟨hslot, -⟩ := step_line_and_latches hr hstep
    · exact hsame
    · exact hsame
    · obtain hm | hm := hm <;> simp [inSlot, hm] at hslot
  have ht := busy_step hc hr (busy_of_calibrating hm) hstep
  have k := sequencerTick_keeps (edgeNow (currentInputs s) s) (beginTick (currentInputs s) s)
  subst ht
  exact {
    params := k.params
    txReg := hline
    rxPhase := k.rxPhase
    assembly := ⟨k.bitCount, k.zeroCrossCount, k.bitMask, k.accumulatorBuffer⟩
    report := ⟨⟨k.rxHouse, k.rxUnit, k.rxCommand, k.rxStart, k.unitPending, k.unitHousePat⟩,
      k.frameReadyFlag, k.commandReady⟩ }

theorem sequencerTick_calSync (edge : Bool) {s : State} (hm : s.mainState = .calSync) :
    sequencerTick edge s = if edge then calSyncEdge s else s := by simp [sequencerTick, hm]

theorem sequencerTick_calCount (edge : Bool) {s : State} (hm : s.mainState = .calCount) :
    sequencerTick edge s = calCountTick edge s := by simp [sequencerTick, hm]

/-- The position in a calibration of which `edges` edges have come, the first of them `ticks` ticks ago
(41_timing_profile.md R133, R135). -/
def calibrationAt (edges ticks : Nat) (s : State) : Prop :=
  (edges = 0 ∧ s.mainState = .calSync) ∨
  (1 ≤ edges ∧ s.mainState = .calCount ∧ s.edgeCount.toNat + edges = 201 ∧
    s.calElapsed.toNat = min ticks (2 ^ 32 - 1))

theorem calibrating_of_calibrationAt {edges ticks : Nat} {s : State} (h : calibrationAt edges ticks s) :
    calibrating s :=
  h.imp (fun ⟨_, hm⟩ => hm) fun ⟨_, hm, _⟩ => hm

/-- Before the last edge the sequencer's tick goes on to the next position and does not arm the receiver. -/
theorem sequencerTick_calibrationAt {edge : Bool} {edges ticks : Nat} {s : State} (h : calibrationAt edges ticks s)
    (hmore : edges + edge.toNat ≤ 200) :
    calibrationAt (edges + edge.toNat) (if edges = 0 then 0 else ticks + 1) (sequencerTick edge s) ∧
      (sequencerTick edge s).rxArmed = s.rxArmed := by
  obtain ⟨rfl, hm⟩ | ⟨hpos, hm, hcount, htime⟩ := h
  · rw [sequencerTick_calSync edge hm]
    cases edge with
    | false => exact ⟨.inl ⟨rfl, hm⟩, rfl⟩
    | true => exact ⟨.inr ⟨le_rfl, rfl, rfl, rfl⟩, rfl⟩
  · have hticks : (countElapsed s).calElapsed.toNat = min (ticks + 1) (2 ^ 32 - 1) := by
      rw [countElapsed_toNat, htime]
      omega
    rw [sequencerTick_calCount edge hm, if_neg (by omega)]
    obtain ⟨rfl, e⟩ | ⟨rfl, -, e⟩ | ⟨rfl, hlast, -⟩ := calCountTick_cases edge s
    · rw [e]
      exact ⟨.inr ⟨hpos, hm, hcount, hticks⟩, rfl⟩
    · rw [e]
      refine ⟨.inr ⟨by omega, hm, ?_, hticks⟩, rfl⟩
      have hleft : (s.edgeCount - 1).toNat = s.edgeCount.toNat - 1 :=
        BitVec.toNat_sub_of_le (BitVec.le_def.2 (show 1 ≤ s.edgeCount.toNat by omega))
      show (s.edgeCount - 1).toNat + (edges + true.toNat) = 201
      rw [Bool.toNat_true] at hmore ⊢
      omega
    · have hone : s.edgeCount.toNat = 1 := by rw [hlast]; rfl
      rw [Bool.toNat_true] at hmore
      omega

/-- A tick of a calibration before its last edge. -/
theorem step_calibrationAt {edges ticks : Nat} {s : State} (hd : Disarmed s) (hr : (currentInputs s).rst = false)
    (h : calibrationAt edges ticks s) (hmore : edges + (edgeNow (currentInputs s) s).toNat ≤ 200) :
    ∃ t, step s = .next t ∧ CalibrationKeeps s t ∧ Disarmed t ∧
      calibrationAt (edges + (edgeNow (currentInputs s) s).toNat) (if edges = 0 then 0 else ticks + 1) t := by
  have hm := calibrating_of_calibrationAt h
  have hc := hd.controlInv hm
  have hstep := step_busy hc hr (busy_of_calibrating hm)
  have keeps := step_calibrationKeeps hc hr hm hstep
  obtain ⟨hat, harm⟩ := sequencerTick_calibrationAt (s := beginTick (currentInputs s) s) h hmore
  exact ⟨_, hstep, keeps, ⟨harm.trans hd.armed, keeps.rxPhase.trans hd.phase, rfl⟩, hat⟩

theorem sequencerTick_lastEdge {s : State} (hm : s.mainState = .calCount) (hlast : s.edgeCount = 1) :
    Measured s.params (min (s.calElapsed.toNat + 1) (2 ^ 32 - 1)) (sequencerTick true s) := by
  rw [sequencerTick_calCount true hm]
  obtain ⟨hno, -⟩ | ⟨-, hmore, -⟩ | ⟨-, -, e⟩ := calCountTick_cases true s
  · cases hno
  · exact absurd hlast hmore
  · rw [e, ← countElapsed_toNat]
    refine measured_finishCalibrate (s := { countElapsed s with edgeCount := 0 }) ?_
    rw [countElapsed_toNat]
    omega

/-- The tick of the last edge is the end of the measurement, and is itself measured (41_timing_profile.md R133, "at t2"). -/
theorem step_lastEdge {s : State} (hc : ControlInv s) (hr : (currentInputs s).rst = false) (hm : s.mainState = .calCount)
    (hlast : s.edgeCount = 1) (hedge : edgeNow (currentInputs s) s = true) :
    ∃ t, step s = .next t ∧ CalibrationKeeps s t ∧ Measured s.params (min (s.calElapsed.toNat + 1) (2 ^ 32 - 1)) t := by
  have hstep := step_busy hc hr (by simp [hm])
  have keeps := step_calibrationKeeps hc hr (.inr hm) hstep
  rw [hedge] at hstep keeps
  exact ⟨_, hstep, keeps, (sequencerTick_lastEdge (s := beginTick (currentInputs s) s) hm hlast).withPending false⟩

end Sys2Proof.Machine
end

section
/-! PROOFS. Runs over placed levels: one tick more, the levels a run has used up, and the edges it has seen. -/

namespace Sys2Proof.Safety

open Sys2Proof Sys2Proof.Machine

theorem run_succ (m : Nat) (s : State) : run (m + 1) s = andThen (step s) (run m) := by
  unfold run andThen
  cases h : step s <;> simp [Host.Core.run, core, h]

/-- A run of one tick more, by its last tick. -/
theorem run_snoc {m : Nat} {s u : State} (h : run m s = .next u) : run (m + 1) s = step u := by
  induction m generalizing s with
  | zero =>
    cases h
    rw [run_succ]
    cases step u <;> rfl
  | succ m ih =>
    rw [run_succ] at h ⊢
    obtain ⟨t, hstep, hrun⟩ := andThen_next h
    rw [hstep]
    exact ih hrun

theorem run_inputs {m : Nat} {s u : State} (h : run m s = .next u) : u.inputs = s.inputs.drop m := by
  induction m generalizing s with
  | zero =>
    cases h
    rfl
  | succ m ih =>
    rw [run_succ] at h
    obtain ⟨t, hstep, hrun⟩ := andThen_next h
    obtain ⟨-, -, -, hinputs⟩ := step_tickMoves hstep
    rw [ih hrun, hinputs, List.drop_tail]

/-- The edges among the first `m` levels placed. -/
def edgesBy (s : State) (m : Nat) : Nat := edgesIn s.zcPrev (s.inputs.take m)

theorem edgesIn_take_mono {m n : Nat} (h : m ≤ n) (prev : Bool) (levels : List Inputs) :
    edgesIn prev (levels.take m) ≤ edgesIn prev (levels.take n) := by
  induction levels generalizing prev m n with
  | nil => simp
  | cons inp rest ih =>
    cases m with
    | zero => exact Nat.zero_le _
    | succ m =>
      obtain ⟨n, rfl⟩ : ∃ k, n = k + 1 := ⟨n - 1, by omega⟩
      exact Nat.add_le_add_left (ih (by omega) inp.zcIn) _

theorem edgesBy_mono {m n : Nat} (h : m ≤ n) (s : State) : edgesBy s m ≤ edgesBy s n := edgesIn_take_mono h _ _

/-- The first level placed is the one the core compares with the level before it (10_state.md R40). -/
theorem edgesBy_front {s : State} {inp : Inputs} {rest : List Inputs} (hin : s.inputs = inp :: rest) (n : Nat) :
    edgesBy s (n + 1) = (edgeNow (currentInputs s) s).toNat + edgesIn inp.zcIn (rest.take n) := by
  have hnow : currentInputs s = inp := by rw [currentInputs, hin]
  have hedge : (edgeNow inp s).toNat = if inp.zcIn = s.zcPrev then 0 else 1 := by
    unfold edgeNow
    cases inp.zcIn <;> cases s.zcPrev <;> rfl
  rw [edgesBy, hin, hnow, hedge]
  rfl

/-- One tick more of a run sees one edge more exactly where the core sees an edge. -/
theorem edgesBy_succ {m : Nat} {s u : State} (hm : m < s.inputs.length) (h : run m s = .next u) :
    edgesBy s (m + 1) = edgesBy s m + (edgeNow (currentInputs u) u).toNat := by
  induction m generalizing s with
  | zero =>
    cases h
    obtain ⟨inp, rest, hin⟩ := List.exists_cons_of_length_pos hm
    rw [edgesBy_front hin]
    exact Nat.add_comm _ _
  | succ m ih =>
    rw [run_succ] at h
    obtain ⟨t, hstep, hrun⟩ := andThen_next h
    obtain ⟨inp, rest, hin⟩ := List.exists_cons_of_length_pos (Nat.zero_lt_of_lt hm)
    obtain ⟨hlevel, -, -, hinputs⟩ := step_tickMoves hstep
    rw [currentInputs, hin] at hlevel
    rw [hin, List.tail_cons] at hinputs
    have hback : ∀ n, edgesIn inp.zcIn (rest.take n) = edgesBy t n := fun n => by rw [edgesBy, hlevel, hinputs]
    have hrest : m < t.inputs.length := by
      rw [hin, List.length_cons] at hm
      rw [hinputs]
      omega
    rw [edgesBy_front hin, edgesBy_front hin, hback, hback, ih hrest hrun, Nat.add_assoc]

/-- The tick after `m` of them is no reset where none is placed. -/
theorem rst_of_noReset {m n : Nat} {s u : State} (hn : noReset n s) (hm : m < n) (h : run m s = .next u) :
    (currentInputs u).rst = false := by
  obtain ⟨hlen, hall⟩ := hn
  have hlt : m < s.inputs.length := by omega
  have hin : u.inputs = s.inputs[m] :: s.inputs.drop (m + 1) := by
    rw [run_inputs h, List.drop_eq_getElem_cons hlt]
  rw [currentInputs, hin]
  exact hall _ (List.mem_take_iff_getElem.2 ⟨m, by omega, rfl⟩)

end Sys2Proof.Safety
end

section
/-! PROOFS. A whole measurement, from the tick after the acceptance of a CALIBRATE (41_timing_profile.md R133, R135). -/

namespace Sys2Proof.Safety

open Sys2Proof Sys2Proof.Machine

/-- The first edge placed comes `j` ticks on and the 200th after it `k` ticks further, and no reset up to then. -/
structure CalibrationEdges (s : State) (j k : Nat) : Prop where
  first_pos : 1 ≤ j
  last_pos : 1 ≤ k
  noReset : noReset (j + k) s
  before_first : edgesBy s (j - 1) = 0
  first : edgesBy s j = 1
  before_last : edgesBy s (j + k - 1) = 200
  last : edgesBy s (j + k) = 201

/-- The state `m` ticks into a calibration that stood at `s` and whose first edge comes `j` ticks on. -/
structure CalibratingAfter (s : State) (j m : Nat) (u : State) : Prop where
  reached : run m s = .next u
  keeps : CalibrationKeeps s u
  disarmed : Disarmed u
  position : calibrationAt (edgesBy s m) (m - j) u

theorem CalibrationEdges.eq_zero_iff {s : State} {j k : Nat} (h : CalibrationEdges s j k) (m : Nat) :
    edgesBy s m = 0 ↔ m < j := by
  constructor
  · intro hnone
    by_contra hlate
    have hmono := edgesBy_mono (not_lt.1 hlate) s
    rw [h.first] at hmono
    omega
  · intro hearly
    have hmono := edgesBy_mono (Nat.le_sub_one_of_lt hearly) s
    rw [h.before_first] at hmono
    omega

/-- Before its last edge the calibration goes on, tick by tick. -/
theorem calibratingAfter_of_edges {s : State} {j k : Nat} (hc : ControlInv s) (hm : s.mainState = .calSync)
    (h : CalibrationEdges s j k) {m : Nat} (hlt : m < j + k) : ∃ u, CalibratingAfter s j m u := by
  induction m with
  | zero => exact ⟨s, rfl, .refl s, disarmed_of_busy hc (by simp [hm]), .inl ⟨rfl, hm⟩⟩
  | succ m ih =>
    obtain ⟨u, hu⟩ := ih (by omega)
    have hlen := h.noReset.1
    have hedges := edgesBy_succ (by omega) hu.reached
    have hmore : edgesBy s (m + 1) ≤ 200 := h.before_last ▸ edgesBy_mono (by omega) s
    obtain ⟨t, hstep, keeps, hd, hat⟩ := step_calibrationAt hu.disarmed (rst_of_noReset h.noReset (by omega) hu.reached)
      hu.position (hedges ▸ hmore)
    refine ⟨t, (run_snoc hu.reached).trans hstep, hu.keeps.trans keeps, hd, ?_⟩
    have hticks : (if edgesBy s m = 0 then 0 else m - j + 1) = m + 1 - j := by
      have hfirst := h.eq_zero_iff m
      split <;> omega
    rw [hedges, ← hticks]
    exact hat

/-- The last edge ends the measurement `k` ticks after the first. -/
theorem calibration_ends {s : State} {j k : Nat} (hc : ControlInv s) (hm : s.mainState = .calSync)
    (h : CalibrationEdges s j k) :
    ∃ t, run (j + k) s = .next t ∧ CalibrationKeeps s t ∧ Measured s.params (min k (2 ^ 32 - 1)) t := by
  have hj := h.first_pos
  have hk := h.last_pos
  have hlen := h.noReset.1
  have hticks : j + k - 1 + 1 = j + k := by omega
  obtain ⟨u, hu⟩ := calibratingAfter_of_edges hc hm h (m := j + k - 1) (by omega)
  have hedge : edgeNow (currentInputs u) u = true := by
    have hlast := edgesBy_succ (by omega) hu.reached
    rw [hticks, h.last, h.before_last] at hlast
    exact Bool.toNat_eq_one.1 (by omega)
  obtain ⟨hnone, -⟩ | ⟨-, hcount, hleft, htime⟩ := hu.position
  · simp [h.before_last] at hnone
  · rw [h.before_last] at hleft
    obtain ⟨t, hstep, keeps, hend⟩ := step_lastEdge (hu.disarmed.controlInv (.inr hcount))
      (rst_of_noReset h.noReset (by omega) hu.reached) hcount
      (BitVec.eq_of_toNat_eq (show u.edgeCount.toNat = 1 by omega)) hedge
    have hrun := run_snoc hu.reached
    have hmeasured : min (u.calElapsed.toNat + 1) (2 ^ 32 - 1) = min k (2 ^ 32 - 1) := by
      rw [htime]
      omega
    rw [hticks, hstep] at hrun
    rw [hmeasured, hu.keeps.params] at hend
    exact ⟨t, hrun, hu.keeps.trans keeps, hend⟩

end Sys2Proof.Safety
end

section

open Sys2Proof Sys2Proof.Machine Sys2Proof.Safety

/-- Settles O22: five selects have a field, and the other three have none. -/
theorem dumpTimingReturnsTheField : Obligations.DumpTimingReturnsTheField := by
  unfold Obligations.DumpTimingReturnsTheField
  intro s
  exact ⟨exec_dumpTiming_field rfl, exec_dumpTiming_field rfl, exec_dumpTiming_field rfl, exec_dumpTiming_field rfl,
    exec_dumpTiming_field rfl, fun _ h => exec_dumpTiming_reserved s h⟩

/-- Settles O28: the acceptance is the response, the disarming and the new position, and nothing else. -/
theorem calibrateDisarmsAndWaits : Obligations.CalibrateDisarmsAndWaits := by
  unfold Obligations.CalibrateDisarmsAndWaits
  exact exec_calibrate

/-- Settles O36: the last edge measures its own tick too, and the quotient is below 54 from 1851852 ticks on. -/
theorem lastCalibrationEdgeSelectsTheSet : Obligations.LastCalibrationEdgeSelectsTheSet := by
  unfold Obligations.LastCalibrationEdgeSelectsTheSet
  intro s hc hr hm hlast hedge e
  obtain ⟨t, hstep, -, h⟩ := step_lastEdge hc hr hm hlast ((edgeNow_iff s).2 hedge)
  have hpos : 0 < e := by simp [e]
  refine ⟨t, hstep, h.idle, h.calibrated, h.armed, h.elapsed, h.frequency, by omega, h.set_p50, h.set_p60, fun h54 => ?_⟩
  have hquot := quotient_lt_54_iff hpos
  rw [← h.frequency, h54] at hquot
  exact h.set_p60 (by omega)

/-- Settles O37, by the position after each tick and the step of the last edge. -/
theorem calibrationMeasuresTheElapsedTicks : Obligations.CalibrationMeasuresTheElapsedTicks := by
  unfold Obligations.CalibrationMeasuresTheElapsedTicks
  intro s j k hc hm hj hk hreset h0 h1 h200 h201 e
  have hedges : CalibrationEdges s j k := ⟨hj, hk, hreset, h0, h1, h200, h201⟩
  refine ⟨fun m u hlt hrun => ?_, ?_⟩
  · obtain ⟨v, hv⟩ := calibratingAfter_of_edges hc hm hedges hlt
    rw [hv.reached] at hrun
    cases hrun
    exact calibrating_of_calibrationAt hv.position
  · obtain ⟨t, hrun, keeps, h⟩ := calibration_ends hc hm hedges
    obtain ⟨hresults, hflags⟩ := keeps.report
    have hphase : s.rxPhase = .idle := (disarmed_of_busy hc (by simp [hm])).phase
    exact ⟨t, hrun, h.idle, h.calibrated, h.armed, keeps.txReg, h.frequency, h.set_p50, h.set_p60, keeps.assembly,
      hresults, hflags, keeps.rxPhase.trans hphase⟩

end

section
/-! PROOFS. TRANSMIT at its acceptance (42_transmitter.md R150, R151, R157, R159), and the 22 slots of a repetition in their
order (42_transmitter.md R153, R156, R162). -/

namespace Sys2Proof.Machine

open Sys2Proof Sys2Proof.Safety

/-! ### The acceptance -/

theorem skipsGuard_iff (payload : PayloadPattern) :
    skipsGuard payload = true ↔ payload = 0b01001 ∨ payload = 0b01011 := by
  simp [skipsGuard, dimPattern, brightPattern]

/-- The frame loop, with DIM and BRIGHT by their patterns (42_transmitter.md R150, R157). -/
theorem nextRepetition_eq (s : State) :
    nextRepetition s =
      if s.txRepeat ≠ 0 then startRepetition s
      else if s.txPayload = 0b01001 ∨ s.txPayload = 0b01011 then rearm s
      else { s with mainState := .guard, edgeCount := 6 } := by
  unfold nextRepetition endRepetitions
  simp only [ite_not, skipsGuard_iff]
  rfl

theorem nextRepetition_of_more {s : State} (h : s.txRepeat ≠ 0) : nextRepetition s = startRepetition s := by
  rw [nextRepetition_eq, if_pos h]

theorem exec_transmit {s : State} (h : s.calibrated = true) (house : HouseCode) (payload : PayloadPattern)
    (reps : BitVec 8) :
    exec (.transmit house payload reps) s =
      .next (nextRepetition (latchOperands house payload reps (disarm (respond true 0 s)))) := by
  simp [exec, execTransmit, h]

theorem exec_transmit_uncalibrated {s : State} (h : s.calibrated = false) (house : HouseCode) (payload : PayloadPattern)
    (reps : BitVec 8) : exec (.transmit house payload reps) s = .refused .transmitUncalibrated := by
  simp [exec, execTransmit, h]

/-- The start of the tick does not calibrate, so the refusal is the whole tick (42_transmitter.md R151). -/
theorem step_transmit_uncalibrated {s : State} (ha : acceptsNow s) (hcode : presentedCode s = 0x2)
    (h : s.calibrated = false) : step s = .refused .transmitUncalibrated := by
  obtain ⟨-, -, hdecode, -⟩ := commandWordsDecodeByOpCode (currentInputs s).opWord
  rw [step_accepted ha (hdecode hcode),
    exec_transmit_uncalibrated (s := beginTick (currentInputs s) s) h]
  rfl

/-! ### The slot after a slot -/

/-- A slot of a repetition: its field, its bit and its half (42_transmitter.md R162). -/
abbrev Slot := TxField × Fin 5 × TxHalf

/-- The first slot of the bit after this one, in this field or the next, none after the last (42_transmitter.md R153). -/
def slotOfNextBit (field : TxField) (bit : Fin 5) : Option Slot :=
  if bit = 0 then
    match field with
    | .start => some (.house, 3, .plain)
    | .house => some (.payload, 4, .plain)
    | .payload => none
  else some (field, bit - 1, .plain)

/-- The slot after this one in its repetition: the complement, but for the start code's bits, or that of the next bit
(42_transmitter.md R153, R156). -/
def slotAfter : Slot → Option Slot
  | (.start, bit, _) => slotOfNextBit .start bit
  | (field, bit, .complement) => slotOfNextBit field bit
  | (field, bit, .plain) => some (field, bit, .complement)

/-- The slot the sequencer is in, or waits for. -/
def currentSlot (s : State) : Slot := (s.txField, s.txBit, s.txHalf)

/-- The wait for a slot. -/
def awaitSlot (slot : Slot) (s : State) : State := waitSlot slot.1 slot.2.1 slot.2.2 s

/-- The end of a repetition: one fewer is left, and the next half is `H_TRUE` (42_transmitter.md R152, R162). -/
def endRepetition (s : State) : State := nextRepetition { s with txHalf := .plain, txRepeat := s.txRepeat - 1 }

/-- Go on to a slot of this repetition, or end it. -/
def goOnTo (slot : Option Slot) (s : State) : State := slot.elim (endRepetition s) fun slot => awaitSlot slot s

theorem advanceBit_eq (s : State) : advanceBit s = goOnTo (slotOfNextBit s.txField s.txBit) s := by
  unfold advanceBit slotOfNextBit goOnTo endRepetition
  by_cases hlast : s.txBit = 0
  · simp only [if_pos hlast]
    cases s.txField <;> rfl
  · simp only [if_neg hlast]
    rfl

/-- Where the sequencer goes on from a slot depends on the slot alone. -/
theorem advanceSlot_eq (s : State) : advanceSlot s = goOnTo (slotAfter (currentSlot s)) s := by
  unfold advanceSlot currentSlot
  rw [advanceBit_eq]
  cases s.txField <;> cases s.txHalf <;> rfl

/-! ### The 22 slots -/

/-- Bits with their complements (42_transmitter.md R153). -/
def withComplements (field : TxField) (bits : List (Fin 5)) : List Slot :=
  bits.flatMap fun bit => [(field, bit, .plain), (field, bit, .complement)]

/-- The slots of a repetition in their order: the start code without complements, then house and payload with them, the
highest bit of each field first (42_transmitter.md R150, R153, R156). -/
def frameSlots : List Slot :=
  [(.start, 3, .plain), (.start, 2, .plain), (.start, 1, .plain), (.start, 0, .plain)] ++
    withComplements .house [3, 2, 1, 0] ++ withComplements .payload [4, 3, 2, 1, 0]

/-- Each slot is the one after the slot before it. -/
theorem frameSlots_succ : ∀ k < 22, frameSlots[k + 1]? = frameSlots[k]?.bind slotAfter := by decide

theorem advanceSlot_awaitSlot (slot : Slot) (s : State) :
    advanceSlot (awaitSlot slot s) = goOnTo (slotAfter slot) (awaitSlot slot s) := advanceSlot_eq _

theorem iterate_advanceSlot {k : Nat} {slot : Slot} (h : frameSlots[k]? = some slot) (s : State) :
    advanceSlot^[k] (startRepetition s) = awaitSlot slot s := by
  induction k generalizing slot with
  | zero =>
    cases h
    rfl
  | succ k ih =>
    have hk : k + 1 < frameSlots.length := (List.getElem?_eq_some_iff.1 h).1
    rw [frameSlots_succ k (Nat.lt_of_succ_lt hk)] at h
    obtain ⟨before, hbefore, hafter⟩ := Option.bind_eq_some_iff.1 h
    rw [Function.iterate_succ_apply', ih hbefore, advanceSlot_awaitSlot, hafter]
    rfl

/-- The slots carry the frame's bits and complements as 30_encoding.md R85 lists them. -/
theorem sentBit_frameSlots (s : State) :
    frameSlots.map (fun slot => sentBit (awaitSlot slot s)) = slots (frameOf 0b1110 s.txHousePat s.txPayload) := by
  simp [frameSlots, withComplements, sentBit, awaitSlot, slots, frameOf]

theorem sentBits_of_repetition (s : State) :
    (List.range 22).map (fun k => sentBit (advanceSlot^[k] (startRepetition s))) =
      slots (frameOf 0b1110 s.txHousePat s.txPayload) := by
  rw [← sentBit_frameSlots]
  refine List.ext_getElem (by simp only [List.length_map, List.length_range]; rfl) fun k _ hk => ?_
  rw [List.length_map] at hk
  rw [List.getElem_map, List.getElem_map, List.getElem_range, iterate_advanceSlot (List.getElem?_eq_getElem hk)]

/-- The 22nd slot is the last one. -/
theorem iterate_advanceSlot_22 (s : State) :
    advanceSlot^[22] (startRepetition s) = endRepetition (awaitSlot (.payload, 0, .complement) s) := by
  have hlast : advanceSlot^[21] (startRepetition s) = awaitSlot (.payload, 0, .complement) s := iterate_advanceSlot rfl s
  rw [Function.iterate_succ_apply' advanceSlot 21, hlast, advanceSlot_awaitSlot]
  rfl

end Sys2Proof.Machine
end

section

open Sys2Proof Sys2Proof.Machine Sys2Proof.Safety

/-- Settles O29, by the three ends of the frame loop. -/
theorem transmitLatchesAndWaits : Obligations.TransmitLatchesAndWaits := by
  unfold Obligations.TransmitLatchesAndWaits
  intro house payload reps s hcal latched
  have hlatched : latchOperands house payload reps (disarm (respond true 0 s)) = latched := by
    rw [latchOperands, houseToPattern_eq]
    rfl
  rw [exec_transmit hcal, hlatched, nextRepetition_eq, apply_ite Host.Outcome.next, apply_ite Host.Outcome.next]
  rfl

/-- Settles O30: the operation refuses, and at its acceptance nothing runs before it. -/
theorem transmitBeforeCalibrateIsRefused : Obligations.TransmitBeforeCalibrateIsRefused := by
  unfold Obligations.TransmitBeforeCalibrateIsRefused
  exact ⟨fun house payload reps _ hcal => exec_transmit_uncalibrated hcal house payload reps,
    fun _ ha hcode hcal => step_transmit_uncalibrated ha hcode hcal⟩

/-- Settles O39, from the list of the slots in their order. -/
theorem repetitionSendsTheSlotsOfTheFrame : Obligations.RepetitionSendsTheSlotsOfTheFrame := by
  unfold Obligations.RepetitionSendsTheSlotsOfTheFrame
  intro s
  refine ⟨sentBits_of_repetition s, fun k hk => ?_, ?_⟩
  · have hslot : frameSlots[k]? = some frameSlots[k] := List.getElem?_eq_getElem hk
    rw [iterate_advanceSlot hslot]
    exact ⟨rfl, rfl⟩
  · intro finished
    have hmore : finished.txRepeat ≠ 0 ↔ s.txRepeat ≠ 1 := sub_ne_zero
    have hend : endRepetition (awaitSlot (.payload, 0, .complement) s) = nextRepetition finished := rfl
    rw [iterate_advanceSlot_22, hend, nextRepetition_eq, if_congr hmore rfl rfl]
    rfl

/-- Settles O40: the operands are those of the example, and the slots of their frame are the list. -/
theorem houseAUnitOneSlots : Obligations.HouseAUnitOneSlots := by
  unfold Obligations.HouseAUnitOneSlots
  intro s hcal
  have honce : (latchOperands 0 0b01100 1 (disarm (respond true 0 s))).txRepeat ≠ 0 := show (1#8) ≠ 0 by decide
  refine ⟨_, exec_transmit hcal _ _ _, ?_⟩
  rw [nextRepetition_of_more honce, sentBits_of_repetition]
  show slots (frameOf 0b1110 (houseToPattern 0) 0b01100) = _
  decide

end

section
/-! PROOFS. The edge waits still to come (42_transmitter.md R160; 41_timing_profile.md R133), and what the sequencer leaves
where it ends (42_transmitter.md R158). -/

namespace Sys2Proof.Safety

open Sys2Proof Sys2Proof.Machine

/-! ### The edge waits of the positions -/

/-- The edge waits that follow the slot the sequencer is in. -/
def waitsAfterSlot (s : State) : Nat :=
  slotsFrom s.txField s.txBit s.txHalf - 1 + 22 * (s.txRepeat.toNat - 1) + guardWaits s.txPayload

theorem edgeWaitsLeft_txWait {s : State} (hm : s.mainState = .txWait) :
    edgeWaitsLeft s = slotsFrom s.txField s.txBit s.txHalf + 22 * (s.txRepeat.toNat - 1) + guardWaits s.txPayload := by
  simp [edgeWaitsLeft, hm]

theorem edgeWaitsLeft_inEmission {s : State} (hm : s.mainState = .txPulse ∨ s.mainState = .txGap) :
    edgeWaitsLeft s = waitsAfterSlot s := by
  obtain hm | hm := hm <;> simp [edgeWaitsLeft, waitsAfterSlot, hm]

theorem slotsFrom_pos (field : TxField) (bit : Nat) (half : TxHalf) : 1 ≤ slotsFrom field bit half := by
  cases field <;> cases half <;> simp [slotsFrom]

theorem edgeWaitsLeft_counting {s : State} (hm : s.mainState = .calCount ∨ s.mainState = .guard) :
    edgeWaitsLeft s = s.edgeCount.toNat := by
  obtain hm | hm := hm <;> simp [edgeWaitsLeft, hm]

/-- The edge that opens a slot is one of its waits. -/
theorem edgeWaitsLeft_opening {s : State} (hm : s.mainState = .txWait) : edgeWaitsLeft s = waitsAfterSlot s + 1 := by
  have hpos := slotsFrom_pos s.txField s.txBit s.txHalf
  rw [edgeWaitsLeft_txWait hm, waitsAfterSlot]
  omega

/-- What the frame loop goes on to waits for 22 edges a repetition and for the guard (42_transmitter.md R160). -/
theorem edgeWaitsLeft_nextRepetition (s : State) :
    edgeWaitsLeft (nextRepetition s) = 22 * s.txRepeat.toNat + guardWaits s.txPayload := by
  by_cases hmore : s.txRepeat ≠ 0
  · have hpos : 0 < s.txRepeat.toNat := by bv_omega
    rw [nextRepetition_of_more hmore, edgeWaitsLeft_txWait rfl]
    show 22 + 22 * (s.txRepeat.toNat - 1) + guardWaits s.txPayload = _
    omega
  · have hnone : s.txRepeat = 0 := not_not.1 hmore
    rw [nextRepetition_eq, if_neg hmore, hnone, guardWaits]
    split <;> rfl

/-- One slot fewer is left after a slot, and after the last none. -/
theorem slotsFrom_slotAfter {field : TxField} {bit : Fin 5} {half : TxHalf}
    (hrange : field ≠ .payload → bit.val ≤ 3) (hplain : field = .start → half = .plain) :
    slotsFrom field bit half =
      ((slotAfter (field, bit, half)).elim 0 fun next => slotsFrom next.1 next.2.1 next.2.2) + 1 := by
  cases field <;> cases half <;> revert bit <;> decide

/-- The end of a slot leaves the waits that follow it. -/
theorem edgeWaitsLeft_advanceSlot {s : State} (hslot : SlotLegal s) :
    edgeWaitsLeft (advanceSlot s) = waitsAfterSlot s := by
  obtain ⟨hrange, hplain, hrep⟩ := hslot
  have hcount := slotsFrom_slotAfter hrange hplain
  rw [advanceSlot_eq, waitsAfterSlot, hcount, Nat.add_sub_cancel]
  show edgeWaitsLeft (goOnTo (slotAfter (s.txField, s.txBit, s.txHalf)) s) = _
  cases slotAfter (s.txField, s.txBit, s.txHalf) with
  | none =>
    have hdec : (s.txRepeat - 1).toNat = s.txRepeat.toNat - 1 := by bv_omega
    have hend := edgeWaitsLeft_nextRepetition { s with txHalf := .plain, txRepeat := s.txRepeat - 1 }
    rw [hdec] at hend
    exact hend.trans (by simp)
  | some slot => exact edgeWaitsLeft_txWait rfl

theorem edgeWaitsLeft_of_slotGoesOn {s t : State} (hslot : SlotLegal s) (h : SlotGoesOn s t) :
    edgeWaitsLeft t = waitsAfterSlot s := by
  obtain ⟨hrange, hplain, hrep⟩ := hslot
  cases h with
  | pulse phase hlen => exact edgeWaitsLeft_inEmission (.inl rfl)
  | gap phase hphase hdelay => exact edgeWaitsLeft_inEmission (.inr rfl)
  | ended phase timer => exact edgeWaitsLeft_advanceSlot ⟨hrange, hplain, hrep⟩

/-! ### An edge takes one off -/

theorem edgeWaitsLeft_counted {s t : State} (hm : t.mainState = .calCount ∨ t.mainState = .guard)
    (hcount : t.edgeCount = s.edgeCount - 1) (hpos : 1 ≤ s.edgeCount.toNat) :
    edgeWaitsLeft t + 1 = s.edgeCount.toNat := by
  rw [edgeWaitsLeft_counting hm, hcount]
  bv_omega

theorem edgeWaitsLeft_calCountTick {edge : Bool} {s : State} (hm : s.mainState = .calCount)
    (hpos : 1 ≤ s.edgeCount.toNat) : edgeWaitsLeft (calCountTick edge s) + edge.toNat = edgeWaitsLeft s := by
  rw [edgeWaitsLeft_counting (.inl hm)]
  obtain ⟨rfl, e⟩ | ⟨rfl, -, e⟩ | ⟨rfl, hlast, e⟩ := calCountTick_cases edge s <;> rw [e]
  · exact edgeWaitsLeft_counting (.inl hm)
  · exact edgeWaitsLeft_counted (.inl hm) rfl hpos
  · rw [hlast]
    rfl

theorem edgeWaitsLeft_guardEdge {s : State} (hm : s.mainState = .guard) (hpos : 1 ≤ s.edgeCount.toNat) :
    edgeWaitsLeft (guardEdge s) + 1 = edgeWaitsLeft s := by
  rw [edgeWaitsLeft_counting (.inr hm)]
  obtain ⟨-, e⟩ | ⟨hlast, e⟩ := guardEdge_cases s <;> rw [e]
  · exact edgeWaitsLeft_counted (.inr hm) rfl hpos
  · rw [hlast]
    rfl

/-- A move of the sequencer takes off the edge it waited for, and nothing else. -/
theorem edgeWaitsLeft_of_moves {edge : Bool} {s t : State} (h : SequencerInv s) (m : SequencerMoves edge s t) :
    edgeWaitsLeft t + (waitsForEdge s && edge).toNat = edgeWaitsLeft s := by
  cases m with
  | stays hstill => obtain hm | rfl := hstill <;> simp [waitsForEdge, *]
  | synchronizes hm hedge => simp [edgeWaitsLeft, waitsForEdge, calSyncEdge, calEdges, hm, hedge]
  | measures hm =>
    have hwait : waitsForEdge s = true := by simp [waitsForEdge, hm]
    rw [hwait, Bool.true_and]
    exact edgeWaitsLeft_calCountTick hm (h.cal_count hm).1
  | delays hm htimer => obtain hm | hm := hm <;> simp [edgeWaitsLeft, waitsForEdge, hm]
  | emits hm hslot =>
    have hsend : sending s = true := by obtain ⟨hm, -⟩ | hm | hm := hm <;> simp [sending, hm]
    rw [edgeWaitsLeft_of_slotGoesOn (h.slotLegal hsend) hslot]
    obtain ⟨hm, hedge⟩ | hm := hm
    · rw [edgeWaitsLeft_opening hm]
      simp [waitsForEdge, hm, hedge]
    · rw [edgeWaitsLeft_inEmission hm]
      obtain hm | hm := hm <;> simp [waitsForEdge, hm]
  | guards hm hedge =>
    have hnow : (waitsForEdge s && edge) = true := by simp [waitsForEdge, hm, hedge]
    rw [hnow]
    exact edgeWaitsLeft_guardEdge hm (h.guard_count hm).1

theorem edgeWaitsLeft_of_keeps {s t : State} (k : KeepsSequencer s t) : edgeWaitsLeft t = edgeWaitsLeft s := by
  simp only [edgeWaitsLeft, k.mainState, k.edgeCount, k.txField, k.txBit, k.txHalf, k.txRepeat, k.txPayload]

theorem step_edgeWaitsLeft {s t : State} (h : SequencerInv s) (hm : s.mainState ≠ .idle)
    (hr : (currentInputs s).rst = false) (hstep : step s = .next t) :
    edgeWaitsLeft t + (waitsForEdge s && edgeNow (currentInputs s) s).toNat = edgeWaitsLeft s := by
  obtain ⟨hidle, -⟩ | ⟨-, k⟩ := step_sequencerSide hr hstep
  · exact absurd hidle hm
  · have hcount := edgeWaitsLeft_of_moves (sequencerInv_beginTick (currentInputs s) h)
      (sequencerTick_moves (edgeNow (currentInputs s) s) _)
    rw [edgeWaitsLeft_of_keeps k]
    exact hcount

/-! ### The end -/

/-- The end of a blocking operation: the receiver is armed again, and the core calibrated. -/
def endsReady (t : State) : Prop := t.mainState = .idle → t.rxArmed = true ∧ t.calibrated = true

theorem endsReady_of_slotGoesOn {s t : State} (hcal : s.calibrated = true) (h : SlotGoesOn s t) : endsReady t := by
  have hcalibrated : t.calibrated = true := (slotKeeps_of_slotGoesOn h).calibrated.trans hcal
  intro hidle
  refine ⟨?_, hcalibrated⟩
  cases h with
  | pulse => cases hidle
  | gap => cases hidle
  | ended phase timer =>
    obtain ⟨field, bit, half, e, -⟩ | e :=
      advanceSlot_follows { s with txReg := false, txPhase := phase, mainTimer := timer } <;> rw [e] at hidle ⊢
    · cases hidle
    · obtain ⟨-, e⟩ | ⟨-, e⟩ | ⟨-, -, e⟩ := nextRepetition_cases
        { s with txReg := false, txPhase := phase, mainTimer := timer, txHalf := .plain, txRepeat := s.txRepeat - 1 } <;>
        rw [e] at hidle ⊢
      · cases hidle
      · rfl
      · cases hidle

/-- A busy sequencer ends armed and calibrated: a slot and a guard stand only in a calibrated core, and the last edge of a
calibration makes it one (42_transmitter.md R150, R151; 41_timing_profile.md R133). -/
theorem endsReady_of_moves {edge : Bool} {s t : State} (hm : s.mainState ≠ .idle)
    (hcal : sending s = true ∨ s.mainState = .guard → s.calibrated = true) (m : SequencerMoves edge s t) :
    endsReady t := by
  cases m with
  | stays => exact fun hidle => absurd hidle hm
  | synchronizes => exact nofun
  | measures =>
    obtain ⟨-, e⟩ | ⟨-, -, e⟩ | ⟨-, -, e⟩ := calCountTick_cases edge s <;> rw [e]
    · exact fun hidle => absurd hidle hm
    · exact fun hidle => absurd hidle hm
    · exact fun _ => ⟨rfl, rfl⟩
  | delays => exact fun hidle => absurd hidle hm
  | emits hslot hgoes =>
    refine endsReady_of_slotGoesOn (hcal (.inl ?_)) hgoes
    obtain ⟨hm, -⟩ | hm | hm := hslot <;> simp [sending, hm]
  | guards hguard =>
    obtain ⟨-, e⟩ | ⟨-, e⟩ := guardEdge_cases s <;> rw [e]
    · exact fun hidle => absurd hidle hm
    · exact fun _ => ⟨rfl, hcal (.inr hguard)⟩

/-- While the sequencer is busy nothing is received or latched (60_exceptions.md R264). -/
theorem busy_step_receiver {s t : State} (hc : ControlInv s) (hr : (currentInputs s).rst = false)
    (hm : s.mainState ≠ .idle) (hstep : step s = .next t) :
    t.rxPhase = .idle ∧ t.zcPending = false ∧ sameAssembly s t ∧ sameReport s t := by
  have k := sequencerTick_keeps (edgeNow (currentInputs s) s) (beginTick (currentInputs s) s)
  rw [busy_step hc hr hm hstep]
  exact ⟨k.rxPhase.trans (disarmed_of_busy hc hm).phase, rfl,
    ⟨k.bitCount, k.zeroCrossCount, k.bitMask, k.accumulatorBuffer⟩,
    ⟨k.rxHouse, k.rxUnit, k.rxCommand, k.rxStart, k.unitPending, k.unitHousePat⟩, k.frameReadyFlag, k.commandReady⟩

theorem step_endsReady {s t : State} (hc : ControlInv s) (hr : (currentInputs s).rst = false) (hm : s.mainState ≠ .idle)
    (hstep : step s = .next t) : endsReady t := by
  have hready := endsReady_of_moves (s := beginTick (currentInputs s) s) hm hc.sending_calibrated
    (sequencerTick_moves (edgeNow (currentInputs s) s) _)
  rw [busy_step hc hr hm hstep]
  exact hready

end Sys2Proof.Safety
end

section

open Sys2Proof Sys2Proof.Machine Sys2Proof.Safety

/-- Settles O41: at acceptance the frame loop has all repetitions before it. -/
theorem edgeWaitsAtAcceptance : Obligations.EdgeWaitsAtAcceptance := by
  unfold Obligations.EdgeWaitsAtAcceptance
  exact ⟨fun house payload reps _ hcal =>
      ⟨_, exec_transmit hcal house payload reps, edgeWaitsLeft_nextRepetition _⟩,
    fun s => ⟨_, exec_calibrate s, rfl⟩⟩

/-- Settles O42, move by move of the sequencer. -/
theorem edgeWaitsCountDown : Obligations.EdgeWaitsCountDown := by
  unfold Obligations.EdgeWaitsCountDown
  intro s t h hm hr hstep
  have hcount := step_edgeWaitsLeft h hm hr hstep
  rw [← edgeNow_iff, ← Bool.and_eq_true]
  cases hnow : waitsForEdge s && edgeNow (currentInputs s) s <;> rw [hnow] at hcount
  · exact ⟨nofun, fun _ => hcount⟩
  · exact ⟨fun _ => hcount, fun hno => absurd rfl hno⟩

/-- Settles O44: the moves that end in idle arm, and nothing of the receiver is written in a busy tick. -/
theorem sequencerEndRearmsTheReceiver : Obligations.SequencerEndRearmsTheReceiver := by
  unfold Obligations.SequencerEndRearmsTheReceiver
  intro s t hc h hr hm hstep hidle
  obtain ⟨harmed, hcal⟩ := step_endsReady hc hr hm hstep hidle
  obtain ⟨hphase, hlatch, hassembly, hresults, hflags⟩ := busy_step_receiver hc hr hm hstep
  have hline : t.txReg = false := (step_keeps_sequencerInv h hstep).line_low (by simp [hidle])
  exact ⟨harmed, hphase, hlatch, hline, hcal, hassembly, hresults, hflags⟩

end

section
/-! PROOFS. One slot, tick by tick (42_transmitter.md R155): where its emission stands each number of ticks after the edge that
opens it, whatever of its delays are 0. -/

namespace Sys2Proof.Safety

open Sys2Proof Sys2Proof.Machine

/-! ### What a slot keeps while it is sent -/

/-- The ticks of a pulse. -/
def pulseTicks (s : State) : Nat := s.profile.bitLengthUs.toNat

/-- The ticks of a gap. -/
def gapTicks (s : State) : Nat := s.profile.bitDelayUs.toNat

/-- The ticks from the edge that opens a slot to the end of its emission (42_transmitter.md R155). -/
def emissionTicks (s : State) : Nat := 3 * pulseTicks s + 2 * gapTicks s

/-- `u` sends the slot `s` waited for: the slot, its operands, the profile and the receiver's arming are the same. -/
structure SameSlot (s u : State) : Prop where
  slot : currentSlot u = currentSlot s
  txHousePat : u.txHousePat = s.txHousePat
  txPayload : u.txPayload = s.txPayload
  txRepeat : u.txRepeat = s.txRepeat
  edgeCount : u.edgeCount = s.edgeCount
  profile : u.profile = s.profile
  calibrated : u.calibrated = s.calibrated
  rxArmed : u.rxArmed = s.rxArmed
  rxPhase : u.rxPhase = s.rxPhase

theorem SameSlot.refl (s : State) : SameSlot s s := by constructor <;> rfl

/-- The emission writes these fields, and each tick its own. -/
theorem SameSlot.update {s u : State} (h : SameSlot s u) (line : Bool) (phase : Fin 3) (timer : BitVec 16)
    (position : MainState) :
    SameSlot s { u with txReg := line, txPhase := phase, mainTimer := timer, mainState := position } := by
  cases h
  constructor <;> assumption

theorem SameSlot.beginTick {s u : State} (h : SameSlot s u) (inp : Inputs) : SameSlot s (beginTick inp u) := by
  cases h
  constructor <;> assumption

theorem SameSlot.withPending {s u : State} (h : SameSlot s u) (latched : Bool) :
    SameSlot s { u with zcPending := latched } := by
  cases h
  constructor <;> assumption

theorem SameSlot.slotBit {s u : State} (h : SameSlot s u) : slotBit u = sentBit s := by
  obtain ⟨hfield, hrest⟩ := Prod.ext_iff.1 h.slot
  obtain ⟨hbit, hhalf⟩ := Prod.ext_iff.1 hrest
  rw [slotBit_eq_sentBit]
  simp only [sentBit, show u.txField = s.txField from hfield, show u.txBit = s.txBit from hbit,
    show u.txHalf = s.txHalf from hhalf, h.txHousePat, h.txPayload]

/-- `t` stands at the same position as `s` and has the receiver armed alike. -/
structure SamePosition (s t : State) : Prop where
  mainState : t.mainState = s.mainState
  txField : t.txField = s.txField
  txBit : t.txBit = s.txBit
  txHalf : t.txHalf = s.txHalf
  txRepeat : t.txRepeat = s.txRepeat
  edgeCount : t.edgeCount = s.edgeCount
  rxArmed : t.rxArmed = s.rxArmed

/-- The position after a slot depends on the slot and its operands alone. -/
theorem SameSlot.advanceSlot {s u : State} (h : SameSlot s u) : SamePosition (advanceSlot s) (advanceSlot u) := by
  obtain ⟨hfield, hrest⟩ := Prod.ext_iff.1 h.slot
  obtain ⟨hbit, hhalf⟩ := Prod.ext_iff.1 hrest
  rw [advanceSlot_eq, advanceSlot_eq, h.slot]
  cases slotAfter (currentSlot s) with
  | some slot => exact ⟨rfl, rfl, rfl, rfl, h.txRepeat, h.edgeCount, h.rxArmed⟩
  | none =>
    have hrep : u.txRepeat - 1 = s.txRepeat - 1 := by rw [h.txRepeat]
    show SamePosition (endRepetition s) (endRepetition u)
    simp only [endRepetition, nextRepetition_eq, hrep, h.txPayload]
    split
    · exact ⟨rfl, rfl, rfl, rfl, rfl, h.edgeCount, h.rxArmed⟩
    · split
      · exact ⟨rfl, hfield, hbit, rfl, rfl, h.edgeCount, rfl⟩
      · exact ⟨rfl, hfield, hbit, rfl, rfl, rfl, h.rxArmed⟩

theorem advanceSlot_txReg (s : State) : (advanceSlot s).txReg = s.txReg := by
  obtain ⟨field, bit, half, e, -⟩ | e := advanceSlot_follows s <;> rw [e]
  · rfl
  · exact (nextRepetition_keepsRest _).txReg

/-! ### Where the emission stands -/

/-- Where the emission of the slot `s` waited for stands `k` ticks after the tick that follows its edge: in a pulse with
this many ticks left, in a gap before another pulse, or at its end with the position advanced (42_transmitter.md R155). -/
inductive EmissionAt (s : State) (k : Nat) (u : State) : Prop where
  | pulse (same : SameSlot s u) (hm : u.mainState = .txPulse) (hline : u.txReg = sentBit s)
      (htimer : 1 ≤ u.mainTimer.toNat ∧ u.mainTimer.toNat ≤ pulseTicks s)
      (hk : k + u.mainTimer.toNat = u.txPhase.val * (pulseTicks s + gapTicks s) + pulseTicks s)
  | gap (same : SameSlot s u) (hm : u.mainState = .txGap) (hline : u.txReg = false) (hphase : u.txPhase ≠ 2)
      (htimer : 1 ≤ u.mainTimer.toNat ∧ u.mainTimer.toNat ≤ gapTicks s)
      (hk : k + u.mainTimer.toNat = (u.txPhase.val + 1) * (pulseTicks s + gapTicks s))
  | ended (hk : k = emissionTicks s) (hline : u.txReg = false) (hposition : SamePosition (advanceSlot s) u)

theorem EmissionAt.withPending {s u : State} {k : Nat} (h : EmissionAt s k u) (latched : Bool) :
    EmissionAt s k { u with zcPending := latched } := by
  cases h with
  | pulse same hm hline htimer hk => exact .pulse (same.withPending latched) hm hline htimer hk
  | gap same hm hline hphase htimer hk => exact .gap (same.withPending latched) hm hline hphase htimer hk
  | ended hk hline hposition =>
    cases hposition
    exact .ended hk hline (by constructor <;> assumption)

theorem EmissionAt.beginTick {s u : State} {k : Nat} (h : EmissionAt s k u) (inp : Inputs) :
    EmissionAt s k (beginTick inp u) := by
  cases h with
  | pulse same hm hline htimer hk => exact .pulse (same.beginTick inp) hm hline htimer hk
  | gap same hm hline hphase htimer hk => exact .gap (same.beginTick inp) hm hline hphase htimer hk
  | ended hk hline hposition =>
    cases hposition
    exact .ended hk hline (by constructor <;> assumption)

section

variable {s u : State} {k : Nat}

theorem one_le_toNat {n : BitVec 16} (h : n ≠ 0) : 1 ≤ n.toNat := by bv_omega

/-- A pulse of 0 ticks goes straight on, so what follows a pulse stands where it would after its ticks. -/
theorem startPulse_emissionAt {phase : Fin 3} {after : State → State} (h : SameSlot s u)
    (hk : k = phase.val * (pulseTicks s + gapTicks s))
    (hafter : ∀ v, SameSlot s v → v.txPhase = phase → EmissionAt s (k + pulseTicks s) (after v)) :
    EmissionAt s k (startPulse phase after u) := by
  have hlen : u.profile.bitLengthUs.toNat = pulseTicks s := by rw [h.profile, pulseTicks]
  unfold startPulse
  dsimp only
  split
  · rename_i hzero
    have hnone : pulseTicks s = 0 := by rw [← hlen, hzero]; rfl
    have hgo := hafter _ (h.update (slotBit u) phase u.profile.bitLengthUs u.mainState) rfl
    rwa [hnone] at hgo
  · rename_i hsome
    refine .pulse (h.update _ _ _ _) rfl h.slotBit ⟨one_le_toNat hsome, hlen.le⟩ ?_
    show k + u.profile.bitLengthUs.toNat = _
    rw [hlen, hk]

theorem startGap_emissionAt {after : State → State} (h : SameSlot s u) (hphase : u.txPhase ≠ 2)
    (hk : k = u.txPhase.val * (pulseTicks s + gapTicks s) + pulseTicks s)
    (hafter : ∀ v, SameSlot s v → EmissionAt s (k + gapTicks s) (after v)) :
    EmissionAt s k (startGap after u) := by
  have hdelay : u.profile.bitDelayUs.toNat = gapTicks s := by rw [h.profile, gapTicks]
  unfold startGap
  dsimp only
  split
  · rename_i hzero
    have hnone : gapTicks s = 0 := by rw [← hdelay, hzero]; rfl
    have hgo := hafter _ (h.update false u.txPhase u.profile.bitDelayUs u.mainState)
    rwa [hnone] at hgo
  · rename_i hsome
    refine .gap (h.update _ _ _ _) rfl rfl hphase ⟨one_le_toNat hsome, hdelay.le⟩ ?_
    show k + u.profile.bitDelayUs.toNat = _
    rw [hdelay, hk, Nat.succ_mul, Nat.add_assoc]

theorem endSlot_emissionAt (h : SameSlot s u) (hk : k = emissionTicks s) : EmissionAt s k (endSlot u) :=
  .ended hk (advanceSlot_txReg _) (h.update false u.txPhase u.mainTimer u.mainState).advanceSlot

theorem emitThird_emissionAt (h : SameSlot s u) (hk : k = 2 * (pulseTicks s + gapTicks s)) :
    EmissionAt s k (emitThird u) :=
  startPulse_emissionAt h hk fun _ hv _ => endSlot_emissionAt hv (by rw [emissionTicks]; omega)

theorem emitSecond_emissionAt (h : SameSlot s u) (hk : k = pulseTicks s + gapTicks s) :
    EmissionAt s k (emitSecond u) :=
  startPulse_emissionAt h (by simpa using hk) fun _ hv hphase =>
    startGap_emissionAt hv (by rw [hphase]; decide) (by rw [hphase, hk]; simp) fun _ hw =>
      emitThird_emissionAt hw (by omega)

theorem emitSlot_emissionAt (h : SameSlot s u) : EmissionAt s 0 (emitSlot u) :=
  startPulse_emissionAt h (by simp) fun _ hv hphase =>
    startGap_emissionAt hv (by rw [hphase]; decide) (by rw [hphase]; simp) fun _ hw =>
      emitSecond_emissionAt hw (by omega)

theorem pulseEnds_emissionAt (h : SameSlot s u)
    (hk : k = u.txPhase.val * (pulseTicks s + gapTicks s) + pulseTicks s) : EmissionAt s k (pulseEnds u) := by
  unfold pulseEnds
  split
  next hphase =>
    refine startGap_emissionAt h (by rw [hphase]; decide) hk fun _ hv => emitSecond_emissionAt hv ?_
    rw [hk, hphase]
    simp
  next hphase =>
    refine startGap_emissionAt h (by rw [hphase]; decide) hk fun _ hv => emitThird_emissionAt hv ?_
    rw [hk, hphase]
    simp
    omega
  next hphase =>
    refine endSlot_emissionAt h ?_
    rw [hk, hphase, emissionTicks]
    simp
    omega

theorem gapEnds_emissionAt (h : SameSlot s u) (hphase : u.txPhase ≠ 2)
    (hk : k = (u.txPhase.val + 1) * (pulseTicks s + gapTicks s)) : EmissionAt s k (gapEnds u) := by
  unfold gapEnds
  split
  next hzero => exact emitSecond_emissionAt h (by rw [hk, hzero]; simp)
  next hone => exact emitThird_emissionAt h (by rw [hk, hone]; rfl)
  next htwo => exact absurd htwo hphase

/-- A delay goes on with one tick fewer left, or ends. -/
theorem mainDelayTick_cases (after : State → State) (hpos : 1 ≤ u.mainTimer.toNat) :
    (1 < u.mainTimer.toNat ∧ (u.mainTimer - 1).toNat + 1 = u.mainTimer.toNat ∧
      mainDelayTick after u = { u with mainTimer := u.mainTimer - 1 }) ∨
    (u.mainTimer.toNat = 1 ∧ mainDelayTick after u = after { u with mainTimer := 0 }) := by
  unfold mainDelayTick
  split
  next hend =>
    rw [timerExpires_iff] at hend
    exact .inr ⟨by omega, rfl⟩
  next hrun =>
    rw [timerExpires_iff] at hrun
    exact .inl ⟨by omega, by bv_omega, rfl⟩

/-- A tick of an emission that has not ended. -/
theorem sequencerTick_emissionAt (edge : Bool) (h : EmissionAt s k u) (hmore : k < emissionTicks s) :
    EmissionAt s (k + 1) (sequencerTick edge u) := by
  cases h with
  | pulse same hm hline htimer hk =>
    have htick : sequencerTick edge u = mainDelayTick pulseEnds u := by simp [sequencerTick, hm]
    rw [htick]
    obtain ⟨hlong, hleft, e⟩ | ⟨hlast, e⟩ := mainDelayTick_cases pulseEnds htimer.1 <;> rw [e]
    · refine .pulse (same.update _ _ _ _) hm hline ?_ ?_
      · show 1 ≤ (u.mainTimer - 1).toNat ∧ (u.mainTimer - 1).toNat ≤ pulseTicks s
        omega
      · show k + 1 + (u.mainTimer - 1).toNat = u.txPhase.val * _ + _
        omega
    · exact pulseEnds_emissionAt (same.update u.txReg u.txPhase 0 u.mainState) (by rw [← hk, hlast])
  | gap same hm hline hphase htimer hk =>
    have htick : sequencerTick edge u = mainDelayTick gapEnds u := by simp [sequencerTick, hm]
    rw [htick]
    obtain ⟨hlong, hleft, e⟩ | ⟨hlast, e⟩ := mainDelayTick_cases gapEnds htimer.1 <;> rw [e]
    · refine .gap (same.update _ _ _ _) hm hline hphase ?_ ?_
      · show 1 ≤ (u.mainTimer - 1).toNat ∧ (u.mainTimer - 1).toNat ≤ gapTicks s
        omega
      · show k + 1 + (u.mainTimer - 1).toNat = (u.txPhase.val + 1) * _
        omega
    · exact gapEnds_emissionAt (same.update u.txReg u.txPhase 0 u.mainState) hphase (by rw [← hk, hlast])
  | ended hk => omega

/-! ### What the line shows -/

theorem inPulse_of_pulse {len gap k left phase : Nat} (hphase : phase ≤ 2) (hleft : 1 ≤ left ∧ left ≤ len)
    (hk : k + left = phase * (len + gap) + len) : inPulse len gap k = true := by
  interval_cases phase <;> simp [inPulse] <;> omega

theorem inPulse_of_gap {len gap k left phase : Nat} (hphase : phase ≤ 1) (hleft : 1 ≤ left ∧ left ≤ gap)
    (hk : k + left = (phase + 1) * (len + gap)) : inPulse len gap k = false := by
  interval_cases phase <;> simp [inPulse] <;> omega

theorem inPulse_of_end (len gap : Nat) : inPulse len gap (3 * len + 2 * gap) = false := by
  simp [inPulse]
  omega

/-- The line shows the slot's bit inside the pulses and is low elsewhere. -/
theorem EmissionAt.line (h : EmissionAt s k u) :
    u.txReg = (sentBit s && inPulse (pulseTicks s) (gapTicks s) k) := by
  cases h with
  | pulse same hm hline htimer hk => rw [hline, inPulse_of_pulse (by omega) htimer hk, Bool.and_true]
  | gap same hm hline hphase htimer hk => rw [hline, inPulse_of_gap (by omega) htimer hk, Bool.and_false]
  | ended hk hline => rw [hline, hk, emissionTicks, inPulse_of_end, Bool.and_false]

/-- Before its end the emission is in a pulse or a gap of the slot. -/
theorem EmissionAt.sends (h : EmissionAt s k u) (hmore : k < emissionTicks s) :
    SameSlot s u ∧ (u.mainState = .txPulse ∨ u.mainState = .txGap) := by
  cases h with
  | pulse same hm => exact ⟨same, .inl hm⟩
  | gap same hm => exact ⟨same, .inr hm⟩
  | ended hk => omega

/-- No pulse and no gap lasts to the end of the emission. -/
theorem EmissionAt.position (h : EmissionAt s (emissionTicks s) u) : SamePosition (Machine.advanceSlot s) u := by
  have hend : emissionTicks s = 3 * pulseTicks s + 2 * gapTicks s := rfl
  cases h with
  | pulse same hm hline htimer hk =>
    have hphase : u.txPhase.val ≤ 2 := by omega
    interval_cases u.txPhase.val <;> omega
  | gap same hm hline hphase htimer hk =>
    have hphase : u.txPhase.val ≤ 1 := by omega
    interval_cases u.txPhase.val <;> omega
  | ended hk hline hposition => exact hposition

end

/-! ### The run -/

/-- A disarmed core that sends after a calibration is one that a run can reach (42_transmitter.md R151). -/
theorem controlInv_of_sending {s : State} (h : Disarmed s) (hcal : s.calibrated = true)
    (hm : s.mainState = .txPulse ∨ s.mainState = .txGap) : ControlInv s := by
  obtain ⟨ha, hp, hz⟩ := h
  obtain hm | hm := hm <;> constructor <;> simp [ha, hp, hz, hm, hcal]

/-- The tick of the edge starts the emission. -/
theorem step_opensSlot {s : State} (hc : ControlInv s) (hr : (currentInputs s).rst = false) (hm : s.mainState = .txWait)
    (hedge : edgeAt s) : ∃ u, step s = .next u ∧ u.zcPending = false ∧ EmissionAt s 0 u := by
  have htick : sequencerTick (edgeNow (currentInputs s) s) (beginTick (currentInputs s) s) =
      emitSlot (beginTick (currentInputs s) s) := by simp [sequencerTick, hm, (edgeNow_iff s).2 hedge]
  have hstep := step_busy hc hr (by simp [hm])
  rw [htick] at hstep
  exact ⟨_, hstep, rfl, (emitSlot_emissionAt ((SameSlot.refl s).beginTick _)).withPending false⟩

/-- The sequencer's tick is the whole tick of an emission. -/
theorem EmissionAt.step {s u : State} {k : Nat} (h : EmissionAt s k u) (hmore : k < emissionTicks s)
    (hu : ControlInv u) (hr : (currentInputs u).rst = false) :
    ∃ t, Machine.step u = .next t ∧ t.zcPending = false ∧ EmissionAt s (k + 1) t := by
  have hbusy : u.mainState ≠ .idle := by obtain ⟨-, hm | hm⟩ := h.sends hmore <;> simp [hm]
  exact ⟨_, step_busy hu hr hbusy, rfl,
    (sequencerTick_emissionAt _ (h.beginTick (currentInputs u)) hmore).withPending false⟩

/-- Up to its end the emission stands where R155 has it. -/
theorem emission_after {s : State} (hc : ControlInv s) (hm : s.mainState = .txWait) (hedge : edgeAt s)
    (hreset : noReset (emissionTicks s + 1) s) {k : Nat} (hk : k ≤ emissionTicks s) :
    ∃ u, run (k + 1) s = .next u ∧ u.zcPending = false ∧ EmissionAt s k u := by
  induction k with
  | zero =>
    have hr := rst_of_noReset hreset (Nat.succ_pos _) (u := s) rfl
    obtain ⟨u, hstep, hlatch, hu⟩ := step_opensSlot hc hr hm hedge
    exact ⟨u, (run_snoc (m := 0) rfl).trans hstep, hlatch, hu⟩
  | succ k ih =>
    obtain ⟨u, hrun, hlatch, hu⟩ := ih (by omega)
    obtain ⟨same, hsends⟩ := hu.sends hk
    have hd := disarmed_of_busy hc (by simp [hm])
    have hcal : s.calibrated = true := hc.sending_calibrated (.inl (by simp [sending, hm]))
    have hcu : ControlInv u := controlInv_of_sending ⟨same.rxArmed.trans hd.armed, same.rxPhase.trans hd.phase, hlatch⟩
      (same.calibrated.trans hcal) hsends
    obtain ⟨t, hstep, ht⟩ := hu.step hk hcu (rst_of_noReset hreset (by omega) hrun)
    exact ⟨t, (run_snoc hrun).trans hstep, ht⟩

end Sys2Proof.Safety
end

section

open Sys2Proof Sys2Proof.Machine Sys2Proof.Safety

/-- Settles O38, from where the emission stands after each tick. -/
theorem slotShowsThreePulses : Obligations.SlotShowsThreePulses := by
  unfold Obligations.SlotShowsThreePulses
  intro s hc hm hedge len gap n hreset
  refine ⟨fun k hk => ?_, ?_⟩
  · obtain ⟨u, hrun, -, hu⟩ := emission_after hc hm hedge hreset hk
    exact ⟨u, hrun, hu.line, fun hmore => (hu.sends hmore).2⟩
  · obtain ⟨t, hrun, -, ht⟩ := emission_after hc hm hedge hreset le_rfl
    obtain ⟨hstate, hfield, hbit, hhalf, hrep, hcount, harmed⟩ := ht.position
    exact ⟨t, hrun, hstate, hfield, hbit, hhalf, hrep, hcount, harmed⟩

end

section
/-! PROOFS. The host's reads of the receiver (43_receiver.md R195 to R201), and the frame words one by one
(44_frame_words.md R220 to R251), each by its number in the unit table or by its pattern. -/

namespace Sys2Proof.Machine

open Sys2Proof Sys2Proof.Safety

theorem rspOfFlag_eq (flag : Bool) : rspOfFlag flag = if flag then 1 else 0 := by cases flag <;> rfl

/-! ### The 16 unit words and the 16 command words -/

/-- The pattern of a unit is a unit word's, and is read back as that unit (40_code_tables.md R113, R114). -/
theorem unitPatternOf_spec : ∀ number : BitVec 5, 1 ≤ number.toNat ∧ number.toNat ≤ 16 →
    (unitPatternOf number).getLsbD 0 = false ∧ unitOf (unitPatternOf number) = number := by decide

section

variable {s : State} {number : BitVec 5} {pattern : PayloadPattern} (start : BitVec 4) (house : HousePattern)

theorem exec_unitWord (hmode : s.params.strictValidation = false) (hunit : 1 ≤ number.toNat ∧ number.toNat ≤ 16) :
    exec (frameInstr start house (unitPatternOf number)) s = .next (unitReceived number start house s) := by
  obtain ⟨hkind, hback⟩ := unitPatternOf_spec number hunit
  rw [exec_frameInstr, frameReceived_unit start house hmode hkind, hback]

theorem exec_strictUnitWord (hmode : s.params.strictValidation = true)
    (hunit : 1 ≤ number.toNat ∧ number.toNat ≤ 16) :
    exec (frameInstr start house (unitPatternOf number)) s = .next (strictUnitReceived number start house s) := by
  obtain ⟨hkind, hback⟩ := unitPatternOf_spec number hunit
  rw [exec_frameInstr, frameReceived_strictUnit start house hmode hkind, hback]

theorem exec_commandWord (hmode : s.params.strictValidation = false) (hkind : pattern.getLsbD 0 = true) :
    exec (frameInstr start house pattern) s = .next (commandReceived pattern start house s) := by
  rw [exec_frameInstr, frameReceived_command start house hmode hkind]

theorem exec_strictCommandWord (hmode : s.params.strictValidation = true) (hkind : pattern.getLsbD 0 = true) :
    exec (frameInstr start house pattern) s = .next (strictCommandReceived pattern start house s) := by
  rw [exec_frameInstr, frameReceived_strictCommand start house hmode hkind]

end

end Sys2Proof.Machine
end

section

open Sys2Proof Sys2Proof.Machine Sys2Proof.Safety

/-- Settles O20: each read is the response alone. -/
theorem readsReturnTheRegister : Obligations.ReadsReturnTheRegister := by
  unfold Obligations.ReadsReturnTheRegister
  intro s
  rw [← rspOfFlag_eq, ← rspOfFlag_eq]
  exact ⟨rfl, rfl, rfl, rfl, rfl, rfl⟩

/-- Settles O21: the decoder's row for op code 0x4, and its operation. -/
theorem clearCommandReadyClearsBothFlags : Obligations.ClearCommandReadyClearsBothFlags := by
  unfold Obligations.ClearCommandReadyClearsBothFlags
  refine ⟨fun w hcode => ?_, fun _ => rfl⟩
  obtain ⟨-, -, -, -, hclear, -⟩ := commandWordsDecodeByOpCode w
  exact hclear hcode

/-- Settles O31, unit by unit in the order of the payloads. -/
theorem unitWordsWriteTheUnit : Obligations.UnitWordsWriteTheUnit := by
  unfold Obligations.UnitWordsWriteTheUnit
  intro start house s hmode
  have unit (number : BitVec 5) (hunit : 1 ≤ number.toNat ∧ number.toNat ≤ 16) :=
    exec_unitWord start house hmode hunit
  exact ⟨unit 13 (by decide), unit 5 (by decide), unit 3 (by decide), unit 11 (by decide), unit 15 (by decide),
    unit 7 (by decide), unit 1 (by decide), unit 9 (by decide), unit 14 (by decide), unit 6 (by decide),
    unit 4 (by decide), unit 12 (by decide), unit 16 (by decide), unit 8 (by decide), unit 2 (by decide),
    unit 10 (by decide)⟩

/-- Settles O32, pattern by pattern. -/
theorem commandWordsWriteTheCommand : Obligations.CommandWordsWriteTheCommand := by
  unfold Obligations.CommandWordsWriteTheCommand
  intro start house s hmode
  have command (pattern : PayloadPattern) (hkind : pattern.getLsbD 0 = true) :=
    exec_commandWord start house hmode hkind
  exact ⟨command 0b00001 rfl, command 0b00011 rfl, command 0b00101 rfl, command 0b00111 rfl, command 0b01001 rfl,
    command 0b01011 rfl, command 0b01101 rfl, command 0b01111 rfl, command 0b10001 rfl, command 0b10011 rfl,
    command 0b10101 rfl, command 0b10111 rfl, command 0b11001 rfl, command 0b11011 rfl, command 0b11101 rfl,
    command 0b11111 rfl⟩

/-- Settles O33, unit by unit in the order of the payloads. -/
theorem strictUnitWordsOpenThePair : Obligations.StrictUnitWordsOpenThePair := by
  unfold Obligations.StrictUnitWordsOpenThePair
  intro start house s hmode
  have unit (number : BitVec 5) (hunit : 1 ≤ number.toNat ∧ number.toNat ≤ 16) :=
    exec_strictUnitWord start house hmode hunit
  exact ⟨unit 13 (by decide), unit 5 (by decide), unit 3 (by decide), unit 11 (by decide), unit 15 (by decide),
    unit 7 (by decide), unit 1 (by decide), unit 9 (by decide), unit 14 (by decide), unit 6 (by decide),
    unit 4 (by decide), unit 12 (by decide), unit 16 (by decide), unit 8 (by decide), unit 2 (by decide),
    unit 10 (by decide)⟩

/-- Settles O34, pattern by pattern. -/
theorem strictCommandWordsNeedThePair : Obligations.StrictCommandWordsNeedThePair := by
  unfold Obligations.StrictCommandWordsNeedThePair
  intro start house s hmode
  have command (pattern : PayloadPattern) (hkind : pattern.getLsbD 0 = true) :=
    exec_strictCommandWord start house hmode hkind
  exact ⟨command 0b00001 rfl, command 0b00011 rfl, command 0b00101 rfl, command 0b00111 rfl, command 0b01001 rfl,
    command 0b01011 rfl, command 0b01101 rfl, command 0b01111 rfl, command 0b10001 rfl, command 0b10011 rfl,
    command 0b10101 rfl, command 0b10111 rfl, command 0b11001 rfl, command 0b11011 rfl, command 0b11101 rfl,
    command 0b11111 rfl⟩

end

section
/-! PROOFS. One tick of the receiver: the handler's part where no word is accepted, and where it reads the line
(43_receiver.md R181, R184, R188; 60_exceptions.md R264). -/

namespace Sys2Proof.Machine

open Sys2Proof Sys2Proof.Safety

/-! ### A tick without a word, while the sequencer is idle -/

section

variable {s : State}

theorem accepts_of_noWord {inp : Inputs} (hv : inp.opValid = false) : accepts inp s = false := by
  simp [accepts, hv]

/-- Such a tick is the handler's part and the pending latch. -/
theorem step_idleSequencer (hm : s.mainState = .idle) (hr : (currentInputs s).rst = false)
    (ha : accepts (currentInputs s) s = false) :
    step s = andThen
      (handlerPhase (currentInputs s) (edgeNow (currentInputs s) s) false s (beginTick (currentInputs s) s))
      fun handled => .next (pendingPhase (edgeNow (currentInputs s) s) false s handled) := by
  rw [step_quiet hr ha, mainPhase, if_pos hm]

theorem handlerStarts_noWord_iff (ha : accepts (currentInputs s) s = false) :
    handlerStarts (edgeNow (currentInputs s) s) false s = true ↔ startsNow s := by
  rw [← handlerStarts_iff, blockingAccepted, ha, Bool.false_and]

/-- The handler goes on, and shuts the host out (43_receiver.md R181; 60_exceptions.md R268). -/
theorem step_running (hm : s.mainState = .idle) (hr : (currentInputs s).rst = false) (hp : s.rxPhase ≠ .idle) :
    step s = andThen (continueHandler (currentInputs s).rxIn (beginTick (currentInputs s) s))
      fun handled => .next (pendingPhase (edgeNow (currentInputs s) s) false s handled) := by
  have hnot : ¬ handlerStarts (edgeNow (currentInputs s) s) false s = true := by simp [handlerStarts, hp]
  rw [step_idleSequencer hm hr (accepts_of_busy (.inr (.inl hp))), handlerPhase, if_neg hnot, if_neg hp]

/-- The handler does not run. -/
theorem step_still (hm : s.mainState = .idle) (hr : (currentInputs s).rst = false)
    (ha : accepts (currentInputs s) s = false) (hstart : ¬ startsNow s) (hp : s.rxPhase = .idle) :
    step s = .next (pendingPhase (edgeNow (currentInputs s) s) false s (beginTick (currentInputs s) s)) := by
  rw [step_idleSequencer hm hr ha, handlerPhase, if_neg (mt (handlerStarts_noWord_iff ha).1 hstart), if_pos hp]
  rfl

/-- A delay of the handler that is not over is counted. -/
theorem step_waiting (hm : s.mainState = .idle) (hr : (currentInputs s).rst = false) (hp : s.rxPhase ≠ .idle)
    (ht : 1 < s.rxTimer.toNat) :
    step s = .next
      (pendingPhase (edgeNow (currentInputs s) s) false s (countRxTimer (beginTick (currentInputs s) s))) := by
  have hnot : ¬ timerExpires (beginTick (currentInputs s) s).rxTimer = true := by
    rw [timerExpires_iff]
    exact not_le.2 ht
  rw [step_running hm hr hp, continueHandler, if_neg hnot]
  rfl

theorem continueHandler_endOfHold (rx : Bool) (hp : s.rxPhase = .hold) (ht : s.rxTimer.toNat ≤ 1) :
    continueHandler rx s = exec (decodeFrame s.accumulatorBuffer) { s with rxTimer := 0 } := by
  rw [continueHandler, if_pos ((timerExpires_iff _).2 ht), hp]
  rfl

/-- The hold ends in the frame word the accumulator holds (43_receiver.md R188, R189). -/
theorem step_endOfHold (hm : s.mainState = .idle) (hr : (currentInputs s).rst = false) (hp : s.rxPhase = .hold)
    (ht : s.rxTimer.toNat ≤ 1) :
    step s =
      andThen (exec (decodeFrame s.accumulatorBuffer) { beginTick (currentInputs s) s with rxTimer := 0 })
        fun handled => .next (pendingPhase (edgeNow (currentInputs s) s) false s handled) := by
  rw [step_running hm hr (by simp [hp]), continueHandler_endOfHold (s := beginTick (currentInputs s) s) _ hp ht]
  rfl

/-- Without an edge and with none latched, the latch stays empty. -/
theorem pendingPhase_of_noEdge {t : State} (hs : s.zcPending = false) (ht : t.zcPending = false) :
    pendingPhase false false s t = t := by
  have hnone : nextPending false false s t.zcPending = t.zcPending := by simp [nextPending, handlerStarts, hs, ht]
  unfold pendingPhase
  rw [hnone]

end

/-! ### Where the line is read -/

/-- Only a start that samples at once reads the line (43_receiver.md R184). -/
theorem startHandler_blind {s : State} (rx rx' : Bool) (h : ¬ (samplesCrossing s ∧ s.profile.offsetDelayUs = 0)) :
    startHandler rx s = startHandler rx' s := by
  have hprofile : (enterHandler s).profile = s.profile := (enterHandler_keeps s).profile
  unfold startHandler awaitSample
  rw [hprofile]
  by_cases hs : (decide (s.bitCount = 0) || samplesNow s.bitCount (enterHandler s).zeroCrossCount) = true
  · have ho : ¬ s.profile.offsetDelayUs = 0 := fun ho => h ⟨(samplesCrossing_iff s).1 (by simpa using hs), ho⟩
    rw [if_pos hs, if_pos hs, if_neg ho, if_neg ho]
  · rw [if_neg hs, if_neg hs]

/-- Of a handler that runs, only the end of the offset delay reads the line (43_receiver.md R184). -/
theorem continueHandler_blind {s : State} (rx rx' : Bool) (h : ¬ (s.rxPhase = .offset ∧ s.rxTimer.toNat ≤ 1)) :
    continueHandler rx s = continueHandler rx' s := by
  unfold continueHandler
  by_cases he : timerExpires s.rxTimer = true
  · rw [if_pos he, if_pos he]
    cases hp : s.rxPhase with
    | idle => rfl
    | offset => exact absurd ⟨hp, (timerExpires_iff _).1 he⟩ h
    | hold => rfl
  · rw [if_neg he, if_neg he]

/-- At a tick that is no sample the handler's part is the same for both levels of the line. -/
theorem handlerPhase_blind {s mid : State} (level : Bool) (hc : ControlInv s) (b : BeforeHandler s mid)
    (hblind : ¬ readsLine s) :
    handlerPhase { currentInputs s with rxIn := level } (edgeNow (currentInputs s) s)
        (blockingAccepted (currentInputs s) s) s mid =
      handlerPhase (currentInputs s) (edgeNow (currentInputs s) s) (blockingAccepted (currentInputs s) s) s mid := by
  unfold handlerPhase
  by_cases hstart : startsNow s
  · rw [if_pos ((handlerStarts_iff s).2 hstart), if_pos ((handlerStarts_iff s).2 hstart)]
    refine startHandler_blind _ _ fun ⟨hs, ho⟩ => hblind (.inr ⟨hstart, b.samplesCrossing_iff.1 hs, ?_⟩)
    rwa [b.profile_of_running hc (.inl hstart)] at ho
  · rw [if_neg (mt (handlerStarts_iff s).1 hstart), if_neg (mt (handlerStarts_iff s).1 hstart)]
    by_cases hp : s.rxPhase = .idle
    · rw [if_pos hp, if_pos hp]
    · rw [if_neg hp, if_neg hp]
      refine continueHandler_blind _ _ fun ⟨hoff, ht⟩ => hblind (.inl ⟨b.phase.symm.trans hoff, ?_⟩)
      rwa [← b.timer]

theorem andThen_congr {o : Out} {f g : State → Out} (h : ∀ t, o = .next t → f t = g t) :
    andThen o f = andThen o g := by
  cases o with
  | next t => exact h t rfl
  | fault r => rfl
  | refused r => rfl

/-- A tick that does not read the line is the same for both of its levels: the line is an argument of the handler's part
alone. -/
theorem step_withRxIn {s : State} (level : Bool) (hc : ControlInv s) (hblind : ¬ readsLine s) :
    step { s with inputs := { currentInputs s with rxIn := level } :: s.inputs.tail } = step s := by
  cases hr : (currentInputs s).rst with
  | true => exact Eq.trans (step_reset hr) (Eq.symm (step_reset hr))
  | false =>
    have hnot : ¬ (currentInputs s).rst = true := by simp [hr]
    refine Eq.trans (if_neg hnot) (Eq.trans (andThen_congr fun hosted hh => ?_) (Eq.symm (if_neg hnot)))
    exact congrArg (fun handled => andThen handled _)
      (handlerPhase_blind level hc (mainPhase_beforeHandler (edgeNow (currentInputs s) s) hh) hblind)

end Sys2Proof.Machine
end

section

open Sys2Proof Sys2Proof.Machine Sys2Proof.Safety

/-- Settles O6: the tick is the handler's part and the latch, and without an edge the latch adds nothing. -/
theorem stepRunsTheAssembledFrame : Obligations.StepRunsTheAssembledFrame := by
  unfold Obligations.StepRunsTheAssembledFrame
  intro s hr hm hp ht inp edge
  have hstep := step_endOfHold hm hr hp ht
  refine ⟨hstep, fun hedge hlatch => ?_⟩
  have hdone := exec_decodeFrame s.accumulatorBuffer { beginTick inp s with rxTimer := 0 }
  have hempty : (frameReceived (frameStart s.accumulatorBuffer) (frameHouse s.accumulatorBuffer)
      (framePayload s.accumulatorBuffer) { beginTick inp s with rxTimer := 0 }).zcPending = false :=
    (frameReceived_keeps _ _ _ _).zcPending.trans hlatch
  rw [hstep, hdone, andThen, show edgeNow (currentInputs s) s = false from hedge, pendingPhase_of_noEdge hlatch hempty]

/-- Settles O10, with the levels placed first as the ones the tick reads. -/
theorem theLineIsReadOnlyAtTheSample : Obligations.TheLineIsReadOnlyAtTheSample := by
  unfold Obligations.TheLineIsReadOnlyAtTheSample
  intro s inp rest level hc hin hblind
  have hnow : currentInputs s = inp := by rw [currentInputs, hin]
  have hrest : s.inputs.tail = rest := by rw [hin, List.tail_cons]
  subst hnow hrest
  exact step_withRxIn level hc hblind

end

section
/-! PROOFS. A run of the handler at its start and at its sample (43_receiver.md R183 to R188): what the tick finds of
the receiver, and what each sample leaves. -/

namespace Sys2Proof.Safety

open Sys2Proof Sys2Proof.Machine

/-- The line is read inside a run of the handler, so while the sequencer is idle (60_exceptions.md R263). -/
theorem idle_of_readsLine {s : State} (hc : ControlInv s) (hread : readsLine s) : s.mainState = .idle := by
  obtain ⟨hp, -⟩ | ⟨⟨harmed, -⟩, -⟩ := hread
  · exact hc.armed_idle (hc.running_armed (by simp [hp]))
  · exact hc.armed_idle harmed

theorem idle_of_startsNow {s : State} (hc : ControlInv s) (hstart : startsNow s) : s.mainState = .idle :=
  hc.armed_idle hstart.1

/-! ### The receiver as the handler has entered it -/

/-- `u` is the receiver of `s` inside the handler at this tick: the crossing is counted where the handler starts in a
frame, and all else is as the tick found it, but for the flags a CLEAR_COMMAND_READY clears (43_receiver.md R186). -/
structure EnteredFrom (s u : State) : Prop where
  params : u.params = s.params
  profile : u.profile = s.profile
  count : u.bitCount = s.bitCount
  mask : u.bitMask = s.bitMask
  buffer : u.accumulatorBuffer = s.accumulatorBuffer
  counted : startsNow s → s.bitCount ≠ 0 → u.zeroCrossCount = s.zeroCrossCount + 1
  uncounted : ¬ startsNow s ∨ s.bitCount = 0 → u.zeroCrossCount = s.zeroCrossCount
  results : sameResults s u
  flags : ¬ clearsNow s → sameFlags s u

theorem EnteredFrom.of_start {s mid : State} (hm : s.mainState = .idle) (b : BeforeHandler s mid)
    (hstart : startsNow s) : EnteredFrom s (enterHandler mid) := by
  have hprofile := b.profile hm
  obtain ⟨hcount, hcross, hmask, hacc⟩ := b.assembly
  obtain ⟨h0, e⟩ | ⟨h0, e⟩ := enterHandler_cases mid <;> rw [e] <;> rw [hcount] at h0
  · exact ⟨b.params, hprofile, hcount, hmask, hacc, fun _ hne => absurd h0 hne, fun _ => hcross,
      b.results, b.flags_kept⟩
  · exact ⟨b.params, hprofile, hcount, hmask, hacc, fun _ _ => congrArg (· + 1) hcross,
      fun hor => (hor.elim (absurd hstart) (absurd · h0)), b.results, b.flags_kept⟩

theorem EnteredFrom.of_running {s mid : State} (hm : s.mainState = .idle) (b : BeforeHandler s mid)
    (hp : s.rxPhase ≠ .idle) : EnteredFrom s { mid with rxTimer := 0 } := by
  obtain ⟨hcount, hcross, hmask, hacc⟩ := b.assembly
  exact ⟨b.params, b.profile hm, hcount, hmask, hacc, fun ⟨_, hidle, _⟩ => absurd hidle hp,
    fun _ => hcross, b.results, b.flags_kept⟩

/-- The three things a start of the handler can be (43_receiver.md R183, R184, R186). -/
theorem step_started {s t : State} (hm : s.mainState = .idle) (hr : (currentInputs s).rst = false)
    (hstart : startsNow s) (hstep : step s = .next t) :
    ∃ u handled latched, EnteredFrom s u ∧ t = { handled with zcPending := latched } ∧
      ((samplesCrossing s ∧ s.profile.offsetDelayUs = 0 ∧ sampleLine (currentInputs s).rxIn u = .next handled) ∨
        (samplesCrossing s ∧ s.profile.offsetDelayUs ≠ 0 ∧ handled = suspendOffset u) ∨
        (¬ samplesCrossing s ∧ handled = returnHandler u)) := by
  obtain ⟨mid, handled, b, hpart, ht⟩ := step_handlerSide hr hstep
  refine ⟨enterHandler mid, handled, t.zcPending, .of_start hm b hstart, ht, ?_⟩
  have hprofile := b.profile hm
  have hsamples := (samplesCrossing_iff mid).trans b.samplesCrossing_iff
  obtain ⟨-, hs⟩ | ⟨hnot, -⟩ | ⟨hnot, -⟩ := hpart
  · obtain ⟨hcross, ho, hline⟩ | ⟨hcross, ho, rfl⟩ | ⟨h0, hcross, rfl⟩ := startHandler_cases hs
    · exact .inl ⟨hsamples.1 hcross, hprofile ▸ ho, hline⟩
    · exact .inr (.inl ⟨hsamples.1 hcross, hprofile ▸ ho, rfl⟩)
    · exact .inr (.inr ⟨fun hx => (hsamples.2 hx).elim h0 (by simp [hcross]), rfl⟩)
  · exact absurd hstart hnot
  · exact absurd hstart hnot

/-- The tick that reads the line is a sample of the receiver as entered (43_receiver.md R184). -/
theorem step_sampled {s t : State} (hm : s.mainState = .idle) (hr : (currentInputs s).rst = false)
    (hread : readsLine s) (hstep : step s = .next t) :
    ∃ u handled latched, EnteredFrom s u ∧ sampleLine (currentInputs s).rxIn u = .next handled ∧
      t = { handled with zcPending := latched } := by
  obtain ⟨hp, htimer⟩ | ⟨hstart, hsamples, ho⟩ := hread
  · have hrun : s.rxPhase ≠ .idle := by simp [hp]
    obtain ⟨mid, handled, b, hpart, ht⟩ := step_handlerSide hr hstep
    obtain ⟨⟨-, hidle, -⟩, -⟩ | ⟨-, hidle, -⟩ | ⟨-, -, hs⟩ := hpart
    · exact absurd hidle hrun
    · exact absurd hidle hrun
    · have hover : timerExpires mid.rxTimer = true := by rwa [b.timer, timerExpires_iff]
      obtain ⟨hwait, -⟩ | ⟨-, hoff, -⟩ | ⟨-, -, hline⟩ | ⟨-, hoff, -⟩ := continueHandler_cases hs
      · simp [hover] at hwait
      · simp [b.phase, hp] at hoff
      · exact ⟨_, handled, _, .of_running hm b hrun, hline, ht⟩
      · simp [b.phase, hp] at hoff
  · obtain ⟨u, handled, latched, hu, ht, ⟨-, -, hline⟩ | ⟨-, hne, -⟩ | ⟨hnot, -⟩⟩ := step_started hm hr hstart hstep
    · exact ⟨u, handled, latched, hu, hline, ht⟩
    · exact absurd ho hne
    · exact absurd hsamples hnot

/-! ### What a sample leaves -/

section

variable {s : State}

theorem sampleLine_idle_high (h0 : s.bitCount = 0) : sampleLine true s = .next (returnHandler s) := by
  simp [sampleLine, h0]

theorem sampleLine_idle_low (h0 : s.bitCount = 0) : sampleLine false s = .next (returnHandler (detectStart s)) := by
  simp [sampleLine, h0]

/-- A bit goes in, and the handler returns (43_receiver.md R187). -/
theorem sampleLine_bit (rx : Bool) (h0 : s.bitCount ≠ 0) (h12 : s.bitCount ≠ 12) :
    sampleLine rx s = .next (returnHandler (storeBit rx s)) := by
  have h13 : ¬ (storeBit rx s).bitCount = 13 := fun h => h12 (by rw [storeBit_bitCount] at h; bv_omega)
  rw [sampleLine, if_neg h0, if_neg h13]

theorem holdTicks_eq_zero_iff : holdTicks s = 0 ↔ s.profile.halfCycleDelayUs = 0 := by
  have hticks := holdTicks_toNat s
  constructor
  all_goals
    intro h
    simp only [h] at hticks
    bv_omega

/-- The last bit goes in, and the hold begins or, with none, the frame is complete (43_receiver.md R188). -/
theorem sampleLine_lastBit (rx : Bool) (h12 : s.bitCount = 12) :
    sampleLine rx s = if s.profile.halfCycleDelayUs = 0 then .next (frameDone (storeBit rx s))
      else .next (suspendHold (storeBit rx s)) := by
  have h13 : (storeBit rx s).bitCount = 13 := by rw [storeBit_bitCount, h12]; rfl
  rw [sampleLine, if_neg (by simp [h12]), if_pos h13, startHold, completeFrame_eq,
    if_congr (holdTicks_eq_zero_iff (s := storeBit rx s)) rfl rfl]
  rfl

/-- Whatever follows the stored bit, the frame keeps it, and no crossing is counted (43_receiver.md R187). -/
theorem sampleLine_stored {rx : Bool} {t : State} (h0 : s.bitCount ≠ 0) (h : sampleLine rx s = .next t) :
    t.accumulatorBuffer = (storeBit rx s).accumulatorBuffer ∧ t.bitMask = s.bitMask >>> 1 ∧
      t.zeroCrossCount = s.zeroCrossCount := by
  obtain ⟨hz, -⟩ | ⟨hz, -⟩ | ⟨-, -, -, rfl⟩ | ⟨-, -, -, rfl⟩ | ⟨-, -, rfl⟩ := sampleLine_cases h
  · exact absurd hz h0
  · exact absurd hz h0
  · exact ⟨frameReceived_accumulatorBuffer _ _ _ _, frameReceived_bitMask _ _ _ _, frameReceived_zeroCrossCount _ _ _ _⟩
  · exact ⟨rfl, rfl, rfl⟩
  · exact ⟨rfl, rfl, rfl⟩

/-- The stored bit is the complement of the line, in the place the mask shows, which was 0 (43_receiver.md R187). -/
theorem storeBit_getLsbD (rx : Bool) (ha : Assembly s) (h0 : s.bitCount ≠ 0) (j : Nat) :
    (storeBit rx s).accumulatorBuffer.getLsbD j =
      if j + s.bitCount.toNat = 12 then !rx else s.accumulatorBuffer.getLsbD j := by
  have hmask : s.bitMask = 0x1000#13 >>> s.bitCount.toNat := by rw [ha.mask, if_neg h0]
  have hor : (s.accumulatorBuffer ||| s.bitMask).getLsbD j =
      (s.accumulatorBuffer.getLsbD j || decide (j + s.bitCount.toNat = 12)) := by
    rw [BitVec.getLsbD_or, hmask, mask_getLsbD, Nat.add_comm]
  by_cases hj : j + s.bitCount.toNat = 12
  · have hempty := ha.unsampled h0 j (by omega)
    cases rx <;> simp [hj, hempty, hor]
  · cases rx <;> simp [hj, hor]

end

/-- In a frame the crossing is sampled by the count it gets (43_receiver.md R186). -/
theorem samplesCrossing_iff_counted {s : State} (h0 : s.bitCount ≠ 0) :
    samplesCrossing s ↔ s.bitCount.toNat < 5 ∨ (s.zeroCrossCount + 1).getLsbD 0 = true := by
  rw [samplesCrossing, countOdd_iff]
  exact or_iff_right h0

end Sys2Proof.Safety
end

section

open Sys2Proof Sys2Proof.Machine Sys2Proof.Safety

/-- Settles O46: the two samples of an empty receiver. -/
theorem lowSampleInIdleStartsAFrame : Obligations.LowSampleInIdleStartsAFrame := by
  unfold Obligations.LowSampleInIdleStartsAFrame
  intro s t hc hr h0 hread hstep
  obtain ⟨u, handled, latched, hu, hline, rfl⟩ := step_sampled (idle_of_readsLine hc hread) hr hread hstep
  have hempty : u.bitCount = 0 := hu.count.trans h0
  cases hrx : (currentInputs s).rxIn <;> rw [hrx] at hline
  · rw [sampleLine_idle_low hempty] at hline
    cases hline
    exact ⟨rfl, hu.results, hu.flags, nofun, fun _ => ⟨rfl, rfl, rfl, rfl⟩⟩
  · rw [sampleLine_idle_high hempty] at hline
    cases hline
    exact ⟨rfl, hu.results, hu.flags, fun _ => ⟨hu.count, hu.uncounted (.inr h0), hu.mask, hu.buffer⟩, nofun⟩

/-- Settles O47: the three things a start of the handler can be, in a frame. -/
theorem crossingsAreCountedAndSampled : Obligations.CrossingsAreCountedAndSampled := by
  unfold Obligations.CrossingsAreCountedAndSampled
  intro s t hc hr hstart hlow _ hstep
  have h0 : s.bitCount ≠ 0 := by rintro h; simp [h] at hlow
  rw [← samplesCrossing_iff_counted h0]
  obtain ⟨u, handled, latched, hu, rfl, ⟨hs, ho, hline⟩ | ⟨hs, ho, rfl⟩ | ⟨hs, rfl⟩⟩ :=
    step_started (idle_of_startsNow hc hstart) hr hstart hstep
  · obtain ⟨-, -, hcross⟩ := sampleLine_stored (by rwa [hu.count]) hline
    exact ⟨hcross.trans (hu.counted hstart h0), fun _ hne => absurd ho hne, fun _ _ => .inr ⟨hstart, hs, ho⟩,
      fun hnot => absurd hs hnot⟩
  · have htimer : (suspendOffset u).rxTimer.toNat = s.profile.offsetDelayUs.toNat := by
      rw [suspendOffset_rxTimer, offsetTicks, hu.profile]
      bv_omega
    exact ⟨hu.counted hstart h0, fun _ _ => ⟨rfl, htimer, hu.count, hu.mask, hu.buffer, hu.results⟩,
      fun _ hz => absurd hz ho, fun hnot => absurd hs hnot⟩
  · exact ⟨hu.counted hstart h0, fun hyes => absurd hyes hs, fun hyes => absurd hyes hs,
      fun _ => ⟨rfl, hu.count, hu.mask, hu.buffer, hu.results, hu.flags⟩⟩

/-- Settles O48: the bit goes in at the mask, and what follows it depends on the count alone. -/
theorem sampleStoresTheBit : Obligations.SampleStoresTheBit := by
  unfold Obligations.SampleStoresTheBit
  intro s t hc hrecv hr hlow _ hread hstep
  obtain ⟨u, handled, latched, hu, hline, rfl⟩ := step_sampled (idle_of_readsLine hc hread) hr hread hstep
  have h0 : u.bitCount ≠ 0 := by
    rw [hu.count]
    rintro h
    simp [h] at hlow
  have ha : Assembly u := hrecv.assembly.congr hu.count hu.mask hu.buffer
  obtain ⟨hacc, hmask, -⟩ := sampleLine_stored h0 hline
  refine ⟨fun b _ => ?_, hmask.trans (by rw [hu.mask]), fun h12 => ?_, fun h12 hhold => ?_, fun h12 hhold => ?_⟩
  · have hbit := storeBit_getLsbD (currentInputs s).rxIn ha h0 b
    rwa [← hacc, hu.count, hu.buffer] at hbit
  · rw [sampleLine_bit _ h0 (by rwa [hu.count])] at hline
    cases hline
    exact ⟨congrArg (· + 1) hu.count, rfl, hu.results⟩
  · rw [sampleLine_lastBit _ (hu.count.trans h12), hu.profile, if_neg hhold] at hline
    cases hline
    exact ⟨(congrArg (· + 1) (hu.count.trans h12)), rfl, hu.results⟩
  · rw [sampleLine_lastBit _ (hu.count.trans h12), hu.profile, if_pos hhold] at hline
    cases hline
    exact ⟨frameReceived_bitCount _ _ _ _, rfl, frameReceived_frameReadyFlag _ _ _ _⟩

end

section
/-! PROOFS. The delays of the handler over placed levels: the offset before a sample and the hold after the 13th bit
(43_receiver.md R184, R188). -/

namespace Sys2Proof.Safety

open Sys2Proof Sys2Proof.Machine

/-! ### Runs in two parts -/

theorem run_trans {m n : Nat} {s u t : State} (h : run m s = .next u) (k : run n u = .next t) :
    run (m + n) s = .next t := by
  induction m generalizing s with
  | zero =>
    cases h
    rwa [Nat.zero_add]
  | succ m ih =>
    rw [run_succ] at h
    obtain ⟨v, hstep, hrun⟩ := andThen_next h
    rw [Nat.add_right_comm, run_succ, hstep]
    exact ih hrun

theorem run_one {s t : State} (h : step s = .next t) : run 1 s = .next t := (run_snoc (m := 0) rfl).trans h

theorem noReset_after {m n : Nat} {s u : State} (hn : noReset (m + n) s) (h : run m s = .next u) : noReset n u := by
  obtain ⟨hlen, hall⟩ := hn
  unfold noReset
  rw [run_inputs h, List.length_drop, List.take_drop]
  exact ⟨by omega, fun inp hin => hall inp (List.mem_of_mem_drop hin)⟩

theorem noReset_le {m n : Nat} {s : State} (hn : noReset n s) (h : m ≤ n) : noReset m s := by
  obtain ⟨hlen, hall⟩ := hn
  exact ⟨h.trans hlen, fun inp hin => hall inp ((List.take_sublist_take_left h).subset hin)⟩

theorem rst_of_noReset_now {n : Nat} {s : State} (hn : noReset n s) (hpos : 0 < n) : (currentInputs s).rst = false :=
  rst_of_noReset hn hpos (u := s) rfl

/-! ### What a tick without a word leaves -/

/-- What only the main sequencer and the host's blocking operations change is the same. -/
structure SameSetup (s t : State) : Prop where
  params : t.params = s.params
  profile : t.profile = s.profile
  mainState : t.mainState = s.mainState
  rxArmed : t.rxArmed = s.rxArmed

theorem SameSetup.refl (s : State) : SameSetup s s := ⟨rfl, rfl, rfl, rfl⟩

theorem SameSetup.trans {s t u : State} (h : SameSetup s t) (k : SameSetup t u) : SameSetup s u :=
  ⟨k.params.trans h.params, k.profile.trans h.profile, k.mainState.trans h.mainState, k.rxArmed.trans h.rxArmed⟩

theorem step_sameSetup {s t : State} (hm : s.mainState = .idle) (hr : (currentInputs s).rst = false)
    (ha : accepts (currentInputs s) s = false) (hstep : step s = .next t) : SameSetup s t := by
  obtain ⟨-, hosted, hh, k⟩ | ⟨hbusy, -⟩ := step_sequencerSide hr hstep
  · obtain ⟨-, rfl⟩ | ⟨hacc, -⟩ := hostPhase_cases hh
    · exact ⟨k.params, k.profile, k.mainState, k.rxArmed⟩
    · simp [ha] at hacc
  · exact absurd hm hbusy

theorem step_noWord_next {s : State} (hm : s.mainState = .idle) (hr : (currentInputs s).rst = false)
    (ha : accepts (currentInputs s) s = false) : ∃ t, step s = .next t := by
  obtain ⟨handled, hh⟩ := handlerPhase_next (currentInputs s) (edgeNow (currentInputs s) s) false s
    (beginTick (currentInputs s) s)
  rw [step_idleSequencer hm hr ha, hh]
  exact ⟨_, rfl⟩

/-- Between two statements of the handler the receiver waits: frame, results and flags are the same. -/
structure ReceiverWaits (s t : State) : Prop where
  setup : SameSetup s t
  assembly : sameAssembly s t
  report : sameReport s t

theorem sameAssembly.trans {s t u : State} (h : sameAssembly s t) (k : sameAssembly t u) : sameAssembly s u := by
  obtain ⟨h1, h2, h3, h4⟩ := h
  obtain ⟨k1, k2, k3, k4⟩ := k
  exact ⟨k1.trans h1, k2.trans h2, k3.trans h3, k4.trans h4⟩

theorem ReceiverWaits.refl (s : State) : ReceiverWaits s s := ⟨.refl s, ⟨rfl, rfl, rfl, rfl⟩, .refl s⟩

theorem ReceiverWaits.trans {s t u : State} (h : ReceiverWaits s t) (k : ReceiverWaits t u) : ReceiverWaits s u :=
  ⟨h.setup.trans k.setup, h.assembly.trans k.assembly, h.report.trans k.report⟩

/-! ### A delay -/

/-- The handler is `k` ticks into the delay it was suspended in at `s` (00_scope.md R9). -/
structure DelayAfter (s : State) (k : Nat) (u : State) : Prop where
  waits : ReceiverWaits s u
  phase : u.rxPhase = s.rxPhase
  timer : u.rxTimer.toNat + k = s.rxTimer.toNat

theorem delay_after {s : State} {n : Nat} (hm : s.mainState = .idle) (hp : s.rxPhase ≠ .idle) (hn : noReset n s)
    {k : Nat} (hk : k ≤ n) (hmore : k < s.rxTimer.toNat) : ∃ u, run k s = .next u ∧ DelayAfter s k u := by
  induction k with
  | zero => exact ⟨s, rfl, .refl s, rfl, rfl⟩
  | succ k ih =>
    obtain ⟨u, hrun, waits, hphase, htimer⟩ := ih (by omega) (by omega)
    have hstep := step_waiting (waits.setup.mainState.trans hm) (rst_of_noReset hn hk hrun) (by rwa [hphase]) (by omega)
    refine ⟨_, (run_snoc hrun).trans hstep, waits.trans ?_, hphase, ?_⟩
    · exact ⟨⟨rfl, rfl, rfl, rfl⟩, ⟨rfl, rfl, rfl, rfl⟩, .refl u⟩
    · have hdec : (u.rxTimer - 1).toNat = u.rxTimer.toNat - 1 := by bv_omega
      show (u.rxTimer - 1).toNat + (k + 1) = s.rxTimer.toNat
      omega

theorem opReady_of_running {s : State} (hp : s.rxPhase ≠ .idle) : opReady s = false := by simp [opReady, hp]

/-! ### The offset delay -/

theorem EnteredFrom.waits {s t u : State} (h : EnteredFrom s t) (w : ReceiverWaits t u) : EnteredFrom s u := by
  obtain ⟨hcount, hcross, hmask, hacc⟩ := w.assembly
  obtain ⟨hresults, hflags⟩ := w.report
  exact ⟨w.setup.params.trans h.params, w.setup.profile.trans h.profile, hcount.trans h.count, hmask.trans h.mask,
    hacc.trans h.buffer, fun hs h0 => hcross.trans (h.counted hs h0), fun hor => hcross.trans (h.uncounted hor),
    h.results.trans hresults, fun hn => (h.flags hn).trans hflags⟩

/-- A handler that goes on has counted its crossing when it started. -/
theorem EnteredFrom.running {s t u : State} (h : EnteredFrom s t) (hp : t.rxPhase ≠ .idle) (k : EnteredFrom t u) :
    EnteredFrom s u := by
  have hnot : ¬ startsNow t := fun ⟨_, hidle, _⟩ => hp hidle
  have hclear : ¬ clearsNow t := fun ⟨⟨_, _, _, hidle⟩, _⟩ => hp hidle
  have hcross := k.uncounted (.inl hnot)
  exact ⟨k.params.trans h.params, k.profile.trans h.profile, k.count.trans h.count, k.mask.trans h.mask,
    k.buffer.trans h.buffer, fun hs h0 => hcross.trans (h.counted hs h0), fun hor => hcross.trans (h.uncounted hor),
    h.results.trans k.results, fun hn => (h.flags hn).trans (k.flags hclear)⟩

/-- Inside the offset delay, after `k` of its ticks, the first of them the tick of the crossing
(43_receiver.md R184). -/
structure OffsetAfter (s : State) (k : Nat) (u : State) : Prop where
  setup : SameSetup s u
  entered : EnteredFrom s u
  phase : u.rxPhase = .offset
  timer : u.rxTimer.toNat + k = s.profile.offsetDelayUs.toNat + 1

/-- The line is read where the timer of the offset delay runs out. -/
theorem readsLine_iff_of_offset {s : State} (hp : s.rxPhase = .offset) : readsLine s ↔ s.rxTimer.toNat ≤ 1 := by
  have hnot : ¬ startsNow s := fun ⟨_, hidle, _⟩ => by simp [hp] at hidle
  simp [readsLine, hp, hnot]

section

variable {s : State} (hm : s.mainState = .idle) (hstart : startsNow s) (hs : samplesCrossing s)
  (hv : (currentInputs s).opValid = false)

include hm hstart hs hv

theorem step_startsOffset (hr : (currentInputs s).rst = false) (ho : s.profile.offsetDelayUs ≠ 0) :
    ∃ t, step s = .next t ∧ OffsetAfter s 1 t := by
  obtain ⟨t, hstep⟩ := step_noWord_next hm hr (accepts_of_noWord hv)
  have hsetup := step_sameSetup hm hr (accepts_of_noWord hv) hstep
  refine ⟨t, hstep, ?_⟩
  obtain ⟨u, handled, latched, hu, rfl, ⟨-, hz, -⟩ | ⟨-, -, rfl⟩ | ⟨hnot, -⟩⟩ := step_started hm hr hstart hstep
  · exact absurd hz ho
  · refine ⟨hsetup, hu.waits ⟨⟨rfl, rfl, rfl, rfl⟩, ⟨rfl, rfl, rfl, rfl⟩, .refl u⟩, rfl, ?_⟩
    show (offsetTicks u).toNat + 1 = _
    rw [offsetTicks, hu.profile]
    bv_omega
  · exact absurd hs hnot

theorem offset_after {n : Nat} (hn : noReset n s) {k : Nat} (hk : k + 1 ≤ n)
    (hmore : k + 1 ≤ s.profile.offsetDelayUs.toNat) : ∃ u, run (k + 1) s = .next u ∧ OffsetAfter s (k + 1) u := by
  obtain ⟨t, hstep, hbegun⟩ := step_startsOffset hm hstart hs hv (rst_of_noReset_now hn (by omega)) (by bv_omega)
  obtain ⟨hsetup, hentered, hphase, htimer⟩ := hbegun
  have hrest : noReset k t := noReset_after (noReset_le hn (by omega)) (run_one hstep)
  obtain ⟨u, hrun, waits, hstill, hleft⟩ :=
    delay_after (hsetup.mainState.trans hm) (by simp [hphase]) hrest le_rfl (by omega)
  refine ⟨u, ?_, hsetup.trans waits.setup, hentered.waits waits, hstill.trans hphase, by omega⟩
  rw [run_succ, hstep]
  exact hrun

/-- The line is read once, `offsetDelayUs` ticks after the crossing, and what is read is sampled
(43_receiver.md R184). -/
theorem run_sampled (hn : noReset (s.profile.offsetDelayUs.toNat + 1) s) :
    ∃ m t u handled latched, run s.profile.offsetDelayUs.toNat s = .next m ∧ step m = .next t ∧ SameSetup s t ∧
      EnteredFrom s u ∧ sampleLine (currentInputs m).rxIn u = .next handled ∧
      t = { handled with zcPending := latched } := by
  generalize hoffset : s.profile.offsetDelayUs.toNat = n at hn
  cases n with
  | zero =>
    have hr := rst_of_noReset_now hn (Nat.succ_pos _)
    have hread : readsLine s := .inr ⟨hstart, hs, BitVec.eq_of_toNat_eq hoffset⟩
    obtain ⟨t, hstep⟩ := step_noWord_next hm hr (accepts_of_noWord hv)
    obtain ⟨u, handled, latched, hu, hline, ht⟩ := step_sampled hm hr hread hstep
    exact ⟨s, t, u, handled, latched, rfl, hstep, step_sameSetup hm hr (accepts_of_noWord hv) hstep, hu, hline, ht⟩
  | succ k =>
    obtain ⟨m, hrun, hsetup, hentered, hphase, htimer⟩ := offset_after hm hstart hs hv hn (k := k) (by omega) (by omega)
    have hidle := hsetup.mainState.trans hm
    have hr := rst_of_noReset hn (by omega) hrun
    have hbusy : m.rxPhase ≠ .idle := by simp [hphase]
    have ha : accepts (currentInputs m) m = false := accepts_of_busy (.inr (.inl hbusy))
    obtain ⟨t, hstep⟩ := step_noWord_next hidle hr ha
    obtain ⟨u, handled, latched, hu, hline, ht⟩ :=
      step_sampled hidle hr ((readsLine_iff_of_offset hphase).2 (by omega)) hstep
    exact ⟨m, t, u, handled, latched, hrun, hstep, hsetup.trans (step_sameSetup hidle hr ha hstep),
      hentered.running hbusy hu, hline, ht⟩

end

end Sys2Proof.Safety
end

section

open Sys2Proof Sys2Proof.Machine Sys2Proof.Safety

/-- Settles O45: the timer of the offset delay, tick by tick. -/
theorem sampleComesAtTheOffset : Obligations.SampleComesAtTheOffset := by
  unfold Obligations.SampleComesAtTheOffset
  intro s hc hstart hs hv n hpos hn
  have hclear : ¬ clearsNow s := fun ⟨⟨_, hvalid, _⟩, _⟩ => by simp [hv] at hvalid
  refine ⟨?_, fun k hk hkn => ?_⟩
  · rintro (⟨hoff, -⟩ | ⟨-, -, ho⟩)
    · simp [hstart.2.1] at hoff
    · simp [n, ho] at hpos
  · obtain ⟨k, rfl⟩ := Nat.exists_eq_add_of_le' hk
    obtain ⟨u, hrun, -, hentered, hphase, htimer⟩ :=
      offset_after (idle_of_startsNow hc hstart) hstart hs hv hn hkn hkn
    have hread : readsLine u ↔ k + 1 = n := by
      rw [readsLine_iff_of_offset hphase]
      omega
    exact ⟨u, hrun, hphase, opReady_of_running (by simp [hphase]), hread, hentered.count, hentered.mask,
      hentered.buffer, hentered.results, hentered.flags hclear⟩

end

section
/-! PROOFS. The end of a frame (43_receiver.md R188): the hold after the 13th sample, and the frame word that acts at
its end. -/

namespace Sys2Proof.Safety

open Sys2Proof Sys2Proof.Machine

/-! ### What a frame word reads -/

/-- What a frame word does to results and flags follows from the parameters, the results and the flags. -/
theorem frameReceived_report {s u : State} (start : BitVec 4) (house : HousePattern) (payload : PayloadPattern)
    (hparams : u.params = s.params) (h : sameReport s u) :
    sameReport (frameReceived start house payload s) (frameReceived start house payload u) := by
  obtain ⟨⟨h1, h2, h3, h4, h5, h6⟩, -, -⟩ := h
  cases hmode : s.params.strictValidation <;> cases hkind : payload.getLsbD 0 <;>
    have hmode' := (congrArg Params.strictValidation hparams).trans hmode
  · rw [frameReceived_unit start house hmode hkind, frameReceived_unit start house hmode' hkind]
    exact ⟨⟨rfl, rfl, h3, rfl, h5, h6⟩, rfl, rfl⟩
  · rw [frameReceived_command start house hmode hkind, frameReceived_command start house hmode' hkind]
    exact ⟨⟨rfl, h2, rfl, rfl, h5, h6⟩, rfl, rfl⟩
  · rw [frameReceived_strictUnit start house hmode hkind, frameReceived_strictUnit start house hmode' hkind,
      strictUnitReceived, strictUnitReceived]
    split
    · exact ⟨⟨rfl, rfl, h3, rfl, rfl, rfl⟩, rfl, rfl⟩
    · exact ⟨⟨h1, h2, h3, rfl, rfl, h6⟩, rfl, rfl⟩
  · rw [frameReceived_strictCommand start house hmode hkind, frameReceived_strictCommand start house hmode' hkind,
      strictCommandReceived, strictCommandReceived, h5, h6]
    split
    · exact ⟨⟨rfl, h2, rfl, rfl, h5, h6⟩, rfl, rfl⟩
    · exact ⟨⟨h1, h2, h3, rfl, rfl, rfl⟩, rfl, rfl⟩

/-! ### The frame the 13th sample leaves -/

/-- The frame `f` stands complete in the accumulator of `u`, the results and flags still as they were at `s`
(43_receiver.md R187, R188). -/
structure FrameStands (s : State) (f : Frame) (count : BitVec 5) (u : State) : Prop where
  params : u.params = s.params
  report : sameReport s u
  buffer : u.accumulatorBuffer = f
  mask : u.bitMask = s.bitMask >>> 1
  cross : u.zeroCrossCount = count

theorem FrameStands.waits {s t u : State} {f : Frame} {count : BitVec 5} (h : FrameStands s f count t)
    (w : ReceiverWaits t u) : FrameStands s f count u := by
  obtain ⟨-, hcross, hmask, hacc⟩ := w.assembly
  exact ⟨w.setup.params.trans h.params, h.report.trans w.report, hacc.trans h.buffer, hmask.trans h.mask,
    hcross.trans h.cross⟩

/-- A frame has ended: the word `f` has acted, as it would have at `s`, and the receiver is in `Idle`
(43_receiver.md R182, R188). -/
structure FrameActed (s : State) (f : Frame) (count : BitVec 5) (t : State) : Prop where
  buffer : t.accumulatorBuffer = f
  mask : t.bitMask = s.bitMask >>> 1
  cross : t.zeroCrossCount = count
  idle : t.rxPhase = .idle
  bits : t.bitCount = 0
  ready : t.frameReadyFlag = true
  report : sameReport (frameReceived (frameStart f) (frameHouse f) (framePayload f) s) t

theorem FrameStands.acted {s u : State} {f : Frame} {count : BitVec 5} (h : FrameStands s f count u)
    (latched : Bool) : FrameActed s f count { frameDone u with zcPending := latched } := by
  obtain ⟨hparams, hreport, rfl, hmask, hcross⟩ := h
  exact {
    buffer := frameReceived_accumulatorBuffer _ _ _ _
    mask := (frameReceived_bitMask _ _ _ _).trans hmask
    cross := (frameReceived_zeroCrossCount _ _ _ _).trans hcross
    idle := rfl
    bits := frameReceived_bitCount _ _ _ _
    ready := frameReceived_frameReadyFlag _ _ _ _
    report := frameReceived_report _ _ _ hparams hreport }

/-- Inside the hold over the frame `f`, after `k` of its ticks, the first of them the tick of the sample. -/
structure HoldAfter (s : State) (f : Frame) (count : BitVec 5) (k : Nat) (u : State) : Prop where
  idle : u.mainState = .idle
  stands : FrameStands s f count u
  phase : u.rxPhase = .hold
  bits : u.bitCount = 13
  timer : u.rxTimer.toNat + k = 5 * s.profile.halfCycleDelayUs.toNat + 1

/-- The frame the 13th sample leaves: the mask is or-ed in where the line is low (43_receiver.md R187). -/
def completedFrame (s : State) : Frame :=
  if (currentInputs s).rxIn then s.accumulatorBuffer else s.accumulatorBuffer ||| s.bitMask

section

variable {s : State} (hm : s.mainState = .idle) (h12 : s.bitCount = 12) (hread : readsLine s)
  (hv : (currentInputs s).opValid = false)

include hm h12 hread hv

/-- The tick of the 13th sample (43_receiver.md R188). -/
theorem step_lastSample (hr : (currentInputs s).rst = false) :
    ∃ count t, (startsNow s → count = s.zeroCrossCount + 1) ∧ (¬ startsNow s → count = s.zeroCrossCount) ∧
      step s = .next t ∧
      (s.profile.halfCycleDelayUs = 0 → FrameActed s (completedFrame s) count t) ∧
      (s.profile.halfCycleDelayUs ≠ 0 → HoldAfter s (completedFrame s) count 1 t) := by
  have hclear : ¬ clearsNow s := fun ⟨⟨_, hvalid, _⟩, _⟩ => by simp [hv] at hvalid
  obtain ⟨t, hstep⟩ := step_noWord_next hm hr (accepts_of_noWord hv)
  have hsetup := step_sameSetup hm hr (accepts_of_noWord hv) hstep
  obtain ⟨u, handled, latched, hu, hline, rfl⟩ := step_sampled hm hr hread hstep
  have hlast : u.bitCount = 12 := hu.count.trans h12
  have hstands : FrameStands s (completedFrame s) u.zeroCrossCount (storeBit (currentInputs s).rxIn u) :=
    ⟨hu.params, ⟨hu.results, hu.flags hclear⟩, by rw [storeBit_accumulatorBuffer, hu.buffer, hu.mask, completedFrame],
      by rw [storeBit_bitMask, hu.mask], rfl⟩
  refine ⟨u.zeroCrossCount, _, fun hs => hu.counted hs (by simp [h12]), fun hn => hu.uncounted (.inl hn), hstep, ?_, ?_⟩
  all_goals
    intro hhalf
    rw [sampleLine_lastBit _ hlast, hu.profile] at hline
  · rw [if_pos hhalf] at hline
    cases hline
    exact hstands.acted latched
  · rw [if_neg hhalf] at hline
    cases hline
    refine ⟨hsetup.mainState.trans hm, hstands.waits ⟨⟨rfl, rfl, rfl, rfl⟩, ⟨rfl, rfl, rfl, rfl⟩, .refl _⟩, rfl, ?_, ?_⟩
    · exact congrArg (· + 1) hlast
    · show (holdTicks u).toNat + 1 = _
      rw [holdTicks_toNat, hu.profile]

end

theorem HoldAfter.delayed {s t : State} {f : Frame} {count : BitVec 5} (h : HoldAfter s f count 1 t) {k n : Nat}
    (hn : noReset n t) (hk : k ≤ n) (hmore : k + 1 ≤ 5 * s.profile.halfCycleDelayUs.toNat) :
    ∃ u, run k t = .next u ∧ HoldAfter s f count (k + 1) u := by
  obtain ⟨hidle, hstands, hphase, hbits, htimer⟩ := h
  obtain ⟨u, hrun, waits, hstill, hleft⟩ := delay_after hidle (by simp [hphase]) hn hk (by omega)
  obtain ⟨hcount, -⟩ := waits.assembly
  exact ⟨u, hrun, waits.setup.mainState.trans hidle, hstands.waits waits, hstill.trans hphase, hcount.trans hbits,
    by omega⟩

/-- The tick at which the hold ends (43_receiver.md R188). -/
theorem HoldAfter.ends {s u : State} {f : Frame} {count : BitVec 5}
    (h : HoldAfter s f count (5 * s.profile.halfCycleDelayUs.toNat) u) (hr : (currentInputs u).rst = false) :
    ∃ t, step u = .next t ∧ FrameActed s f count t := by
  obtain ⟨hidle, hstands, hphase, -, htimer⟩ := h
  have hstep := step_endOfHold hidle hr hphase (by omega)
  rw [exec_decodeFrame] at hstep
  refine ⟨_, hstep, FrameStands.acted (hstands.waits (u := { beginTick (currentInputs u) u with rxTimer := 0 }) ?_) _⟩
  exact ⟨⟨rfl, rfl, rfl, rfl⟩, ⟨rfl, rfl, rfl, rfl⟩, .refl u⟩

end Sys2Proof.Safety
end

section

open Sys2Proof Sys2Proof.Machine Sys2Proof.Safety

/-- Settles O49: the tick of the sample, the ticks of the hold, and the tick of its end. -/
theorem frameEndsAfterFiveHalfCycles : Obligations.FrameEndsAfterFiveHalfCycles := by
  unfold Obligations.FrameEndsAfterFiveHalfCycles
  intro s hc h12 hread hv n f hn
  have hm := idle_of_readsLine hc hread
  obtain ⟨count, t1, hcounted, huncounted, hstep, hnone, hhold⟩ :=
    step_lastSample hm h12 hread hv (rst_of_noReset_now hn (Nat.succ_pos _))
  have hf : completedFrame s = f := rfl
  rw [hf] at hnone hhold
  have hrest : noReset n t1 := noReset_after (m := 1) (by rwa [Nat.add_comm]) (run_one hstep)
  have hheld : ∀ k, k + 1 ≤ n → ∃ u, run (k + 1) s = .next u ∧ HoldAfter s f count (k + 1) u := by
    intro k hk
    have hne : s.profile.halfCycleDelayUs ≠ 0 := fun h => by simp [n, h] at hk
    obtain ⟨u, hrun, hu⟩ := (hhold hne).delayed hrest (by omega) hk
    exact ⟨u, by rw [run_succ, hstep]; exact hrun, hu⟩
  refine ⟨count, hcounted, huncounted, fun k hk hkn => ?_, ?_⟩
  · obtain ⟨k, rfl⟩ := Nat.exists_eq_add_of_le' hk
    obtain ⟨u, hrun, -, hstands, hphase, hbits, -⟩ := hheld k hkn
    obtain ⟨hresults, hflags⟩ := hstands.report
    exact ⟨u, hrun, hphase, hbits, opReady_of_running (by simp [hphase]), hstands.buffer, hstands.mask, hstands.cross,
      hresults, hflags⟩
  · have hacted : ∃ t, run (n + 1) s = .next t ∧ FrameActed s f count t := by
      by_cases hzero : s.profile.halfCycleDelayUs = 0
      · have hn0 : n = 0 := by simp [n, hzero]
        rw [hn0]
        exact ⟨t1, run_one hstep, hnone hzero⟩
      · obtain ⟨k, hk⟩ : ∃ k, n = k + 1 := ⟨n - 1, by bv_omega⟩
        obtain ⟨u, hrun, hu⟩ := hheld k hk.ge
        rw [← hk] at hrun hu
        obtain ⟨t, hend, hacted⟩ := hu.ends (rst_of_noReset hn (Nat.lt_succ_self n) hrun)
        exact ⟨t, (run_snoc hrun).trans hend, hacted⟩
    obtain ⟨t, hrun, h⟩ := hacted
    obtain ⟨hresults, -, hcommand⟩ := h.report
    exact ⟨t, _, hrun, exec_decodeFrame f s, h.buffer, h.mask, h.ready, h.bits, h.idle, h.cross, hcommand, hresults⟩

end

section
/-! PROOFS. A whole frame at the receiver (43_receiver.md R202; 30_encoding.md R88): slot after slot, the crossing counted
and in the sampled slots a bit stored. -/

namespace Sys2Proof.Safety

open Sys2Proof Sys2Proof.Machine

/-! ### The part of a frame that is stored -/

/-- The first `n` bits of the frame `f` are in the accumulator (43_receiver.md R187). -/
structure FramePart (f : Frame) (n : Nat) (s : State) : Prop where
  count : s.bitCount.toNat = n
  assembly : Assembly s
  bits : ∀ j < 13, 13 ≤ j + n → s.accumulatorBuffer.getLsbD j = f.getLsbD j

section

variable {f : Frame} {n : Nat} {s t : State}

theorem FramePart.congr (h : FramePart f n s) (hcount : t.bitCount = s.bitCount) (hmask : t.bitMask = s.bitMask)
    (hacc : t.accumulatorBuffer = s.accumulatorBuffer) : FramePart f n t where
  count := by rw [hcount, h.count]
  assembly := h.assembly.congr hcount hmask hacc
  bits := by rw [hacc]; exact h.bits

/-- Start detection stores the first bit, which is 1 (43_receiver.md R185). -/
theorem framePart_detectStart (hfirst : f.getLsbD 12 = true) (s : State) : FramePart f 1 (detectStart s) where
  count := rfl
  assembly := assembly_detectStart s
  bits := fun j hj hlow => by
    obtain rfl : j = 12 := by omega
    rw [hfirst, (assembly_detectStart s).first_bit (show (1#4) ≠ 0 by decide)]

/-- Each further sample stores the next bit where the line shows its complement (43_receiver.md R187). -/
theorem FramePart.storeBit (h : FramePart f n s) (hlow : 1 ≤ n) (hhigh : n ≤ 12) :
    FramePart f (n + 1) (storeBit (!f.getLsbD (12 - n)) s) := by
  obtain ⟨hcount, ha, hbits⟩ := h
  have h0 : s.bitCount ≠ 0 := by rintro h; simp [h] at hcount; omega
  have hle : s.bitCount.toNat ≤ 12 := hcount.trans_le hhigh
  refine ⟨(bitCount_succ hle).trans (by rw [hcount]), ha.storeBit _ h0 hle, fun j hj hstored => ?_⟩
  rw [storeBit_getLsbD _ ha h0, hcount]
  by_cases hnew : j + n = 12
  · obtain rfl : j = 12 - n := by omega
    rw [if_pos hnew, Bool.not_not]
  · rw [if_neg hnew, hbits j hj (by omega)]

/-- All 13 bits stored are the frame, and the mask has run out. -/
theorem FramePart.complete (h : FramePart f 13 s) : s.accumulatorBuffer = f ∧ s.bitMask = 0 := by
  obtain ⟨hcount, ha, hbits⟩ := h
  refine ⟨BitVec.eq_of_getLsbD_eq fun j hj => hbits j hj (by omega), ?_⟩
  rw [ha.mask, hcount]
  split <;> rfl

end

/-! ### The slots -/

/-- The bits stored after `k` slots: the start code's four and the first bit of the house as they come, then one bit for
two slots (43_receiver.md R186, R202). -/
def storedBy (k : Nat) : Nat := if k ≤ 5 then k else 5 + (k - 5) / 2

/-- Slot `k` is sampled (43_receiver.md R186, R202). -/
def slotSampled (k : Nat) : Prop := k < 5 ∨ k % 2 = 0

theorem slotSampled_spec {k : Nat} (hk : k ≤ 20) (h : slotSampled k) :
    bitOfSlot k = some (12 - storedBy k) ∧ storedBy (k + 1) = storedBy k + 1 := by
  unfold slotSampled at h
  by_cases h5 : k < 5
  · rw [bitOfSlot, if_pos h5, storedBy, storedBy, if_pos (by omega), if_pos (by omega)]
    exact ⟨rfl, rfl⟩
  · have heven : k % 2 = 0 := h.resolve_left h5
    have hbit : 10 - k / 2 = 12 - (5 + (k - 5) / 2) := by omega
    rw [bitOfSlot, if_neg h5, if_pos ⟨heven, hk⟩, storedBy, storedBy, if_neg (by omega), if_neg (by omega), hbit]
    exact ⟨rfl, by omega⟩

theorem storedBy_of_not_slotSampled {k : Nat} (h : ¬ slotSampled k) :
    storedBy (k + 1) = storedBy k ∧ 5 ≤ storedBy k := by
  unfold slotSampled at h
  unfold storedBy
  constructor <;> split_ifs <;> omega

/-- The levels of slot `k` of the frame `f`, for a receiver that stood at `s` before the first slot. -/
structure SlotShown (s : State) (f : Frame) (k : Nat) (window : List Inputs) : Prop where
  long : s.profile.offsetDelayUs.toNat < window.length
  levels : slotLevels (s.zcPrev ^^ (k % 2 == 0)) window
  bit : ∀ b inp, bitOfSlot k = some b → window[s.profile.offsetDelayUs.toNat]? = some inp → inp.rxIn = !f.getLsbD b

/-- The receiver waits for slot `k`, those before it taken: their crossings are counted and the bits sampled in them
stored. -/
structure SlotsTaken (s : State) (f : Frame) (k : Nat) (u : State) : Prop where
  setup : SameSetup s u
  phase : u.rxPhase = .idle
  pending : u.zcPending = false
  level : u.zcPrev = (s.zcPrev ^^ (k % 2 == 1))
  count : u.bitCount.toNat = storedBy k
  part : 1 ≤ k → u.zeroCrossCount.toNat = k ∧ FramePart f (storedBy k) u

/-! ### The levels inside a slot -/

section

variable {level : Bool} {window rest : List Inputs} {s t u : State}

theorem currentInputs_cons {inp : Inputs} (hin : s.inputs = inp :: rest) : currentInputs s = inp := by
  rw [currentInputs, hin]

theorem currentInputs_after {j : Nat} {inp : Inputs} (hin : s.inputs = window ++ rest) (hrun : run j s = .next u)
    (hget : window[j]? = some inp) : currentInputs u = inp := by
  obtain ⟨hlt, hget⟩ := List.getElem?_eq_some_iff.1 hget
  refine currentInputs_cons (rest := window.drop (j + 1) ++ rest) ?_
  rw [run_inputs hrun, hin, List.drop_append_of_le_length hlt.le, List.drop_eq_getElem_cons hlt, hget]
  rfl

theorem noReset_of_slot (hin : s.inputs = window ++ rest) (hslot : slotLevels level window) {j : Nat}
    (hj : j ≤ window.length) : noReset j s := by
  unfold noReset
  rw [hin, List.take_append_of_le_length hj, List.length_append]
  exact ⟨by omega, fun inp hmem => (hslot inp (List.mem_of_mem_take hmem)).1⟩

/-- An edge that starts the handler is not latched, and no edge is latched where there is none
(60_exceptions.md R265). -/
theorem step_unlatched (hm : s.mainState = .idle) (hr : (currentInputs s).rst = false)
    (hv : (currentInputs s).opValid = false) (hz : s.zcPending = false)
    (hedge : startsNow s ∨ edgeNow (currentInputs s) s = false) (hstep : step s = .next t) : t.zcPending = false := by
  have ha : accepts (currentInputs s) s = false := accepts_of_noWord hv
  rw [step_idleSequencer hm hr ha] at hstep
  obtain ⟨handled, hh, hlatch⟩ := andThen_next hstep
  cases hlatch
  have hkept : handled.zcPending = false := (handlerPhase_keeps hh).zcPending.trans hz
  rw [pendingPhase_zcPending, nextPending]
  obtain hstart | hnone := hedge
  · simp [(handlerStarts_noWord_iff ha).2 hstart]
  · simp [hnone, hkept]

/-- While the level of the line stays, nothing is latched. -/
theorem latch_in_slot (hm : s.mainState = .idle) (hin : s.inputs = window ++ rest) (hslot : slotLevels s.zcPrev window)
    (hz : s.zcPending = false) (hrun : run window.length s = .next u) : u.zcPending = false ∧ u.zcPrev = s.zcPrev := by
  induction window generalizing s with
  | nil =>
    cases hrun
    exact ⟨hz, rfl⟩
  | cons inp more ih =>
    obtain ⟨⟨hr, hv, hlevel⟩, hmore⟩ := List.forall_mem_cons.1 hslot
    rw [← currentInputs_cons hin] at hr hv hlevel
    rw [List.length_cons, run_succ] at hrun
    obtain ⟨t, hstep, hrun⟩ := andThen_next hrun
    obtain ⟨hprev, -, -, hinputs⟩ := step_tickMoves hstep
    have hsame : t.zcPrev = s.zcPrev := hprev.trans hlevel
    have hz' := step_unlatched hm hr hv hz (.inr (by simp [edgeNow, hlevel])) hstep
    have hsetup := step_sameSetup hm hr (accepts_of_noWord hv) hstep
    obtain ⟨hlatch, hlast⟩ := ih (hsetup.mainState.trans hm) (by rw [hinputs, hin]; rfl) (by rwa [hsame]) hz' hrun
    exact ⟨hlatch, hlast.trans hsame⟩

/-- A slot that starts the handler latches nothing either, and the level of its line is the next one compared. -/
theorem latch_after_start (hm : s.mainState = .idle) (hin : s.inputs = window ++ rest) (hslot : slotLevels level window)
    (hstart : startsNow s) (hz : s.zcPending = false) (hne : 0 < window.length)
    (hrun : run window.length s = .next u) : u.zcPending = false ∧ u.zcPrev = level := by
  obtain ⟨inp, more, rfl⟩ := List.exists_cons_of_length_pos hne
  obtain ⟨⟨hr, hv, hlevel⟩, hmore⟩ := List.forall_mem_cons.1 hslot
  rw [← currentInputs_cons hin] at hr hv hlevel
  rw [List.length_cons, run_succ] at hrun
  obtain ⟨t, hstep, hrun⟩ := andThen_next hrun
  obtain ⟨hprev, -, -, hinputs⟩ := step_tickMoves hstep
  have hsame : t.zcPrev = level := hprev.trans hlevel
  have hsetup := step_sameSetup hm hr (accepts_of_noWord hv) hstep
  have hz' := step_unlatched hm hr hv hz (.inl hstart) hstep
  have hin' : t.inputs = more ++ rest := by
    rw [hinputs, hin]
    rfl
  rw [← hsame] at hmore ⊢
  exact latch_in_slot (hsetup.mainState.trans hm) hin' hmore hz' hrun

/-- An idle receiver waits while the level of the line stays. -/
theorem waits_in_slot (hm : s.mainState = .idle) (hp : s.rxPhase = .idle) (hz : s.zcPending = false)
    (hin : s.inputs = window ++ rest) (hslot : slotLevels s.zcPrev window) :
    ∃ u, run window.length s = .next u ∧ ReceiverWaits s u ∧ u.rxPhase = .idle := by
  induction window generalizing s with
  | nil => exact ⟨s, rfl, .refl s, hp⟩
  | cons inp more ih =>
    obtain ⟨⟨hr, hv, hlevel⟩, hmore⟩ := List.forall_mem_cons.1 hslot
    rw [← currentInputs_cons hin] at hr hv hlevel
    have hstart : ¬ startsNow s := fun ⟨_, _, hor, _⟩ => hor.elim (absurd hlevel) (by simp [hz])
    obtain ⟨t, hstep, htick, hstill⟩ : ∃ t, step s = .next t ∧ ReceiverWaits s t ∧ t.rxPhase = .idle :=
      ⟨_, step_still hm hr (accepts_of_noWord hv) hstart hp, ⟨⟨rfl, rfl, rfl, rfl⟩, ⟨rfl, rfl, rfl, rfl⟩, .refl s⟩, hp⟩
    obtain ⟨hprev, -, -, hinputs⟩ := step_tickMoves hstep
    have hz' := step_unlatched hm hr hv hz (.inr (by simp [edgeNow, hlevel])) hstep
    obtain ⟨u, hrun, waits, hidle⟩ := ih (htick.setup.mainState.trans hm) hstill hz' (by rw [hinputs, hin]; rfl)
      (by rwa [hprev, hlevel])
    refine ⟨u, ?_, htick.trans waits, hidle⟩
    rw [List.length_cons, run_succ, hstep]
    exact hrun

end

/-! ### One slot -/

section

variable {s u v handled : State} {f : Frame} {k : Nat} {window rest : List Inputs}

/-- A slot opens with an edge, which an armed idle receiver takes. -/
theorem SlotsTaken.starts (h : SlotsTaken s f k u) (harmed : s.rxArmed = true) (w : SlotShown s f k window)
    (hin : u.inputs = window ++ rest) :
    startsNow u ∧ (currentInputs u).rst = false ∧ (currentInputs u).opValid = false := by
  obtain ⟨inp, more, rfl⟩ := List.exists_cons_of_length_pos (Nat.zero_lt_of_lt w.long)
  obtain ⟨hr, hv, hlevel⟩ := w.levels inp List.mem_cons_self
  rw [← currentInputs_cons hin] at hr hv hlevel
  have hedge : edgeAt u := by
    unfold edgeAt
    rw [hlevel, h.level]
    obtain hk | hk := Nat.mod_two_eq_zero_or_one k <;> cases s.zcPrev <;> simp [hk]
  have hnot : ¬ blockingNow u := fun ⟨⟨_, hvalid, _⟩, _⟩ => by simp [hv] at hvalid
  exact ⟨⟨h.setup.rxArmed.trans harmed, h.phase, .inl hedge, hnot⟩, hr, hv⟩

theorem SlotsTaken.samplesCrossing_iff (h : SlotsTaken s f k u) : samplesCrossing u ↔ slotSampled k := by
  have hempty : u.bitCount = 0 ↔ storedBy k = 0 := by
    rw [← h.count]
    exact ⟨fun h => by simp [h], fun h => BitVec.eq_of_toNat_eq h⟩
  unfold samplesCrossing slotSampled
  rw [hempty, h.count]
  obtain rfl | hpos := Nat.eq_zero_or_pos k
  · exact iff_of_true (.inl rfl) (.inl (by decide))
  · rw [(h.part hpos).1]
    unfold storedBy
    split_ifs <;> omega

/-- Inside the handler the crossing of slot `k` is counted, and the part of the frame is as it was. -/
theorem SlotsTaken.entered (h : SlotsTaken s f k u) (hpos : 1 ≤ k) (hk : k ≤ 20) (hstart : startsNow u)
    (hv : EnteredFrom u v) : v.zeroCrossCount.toNat = k + 1 ∧ FramePart f (storedBy k) v := by
  obtain ⟨hcross, hpart⟩ := h.part hpos
  have h0 : u.bitCount ≠ 0 := by
    intro h0
    have hcount := h.count
    unfold storedBy at hcount
    simp [h0] at hcount
    split_ifs at hcount <;> omega
  refine ⟨?_, hpart.congr hv.count hv.mask hv.buffer⟩
  rw [hv.counted hstart h0]
  bv_omega

/-- The crossing of slot `k` is counted, and its bit stored if it has one. -/
structure SlotTaken (f : Frame) (k : Nat) (t : State) : Prop where
  phase : t.rxPhase = .idle
  cross : t.zeroCrossCount.toNat = k + 1
  part : FramePart f (storedBy (k + 1)) t

/-- The sample of every slot but the last stores its bit and ends the handler (43_receiver.md R185, R187). -/
theorem SlotsTaken.sample_stores (h : SlotsTaken s f k u) (hfirst : f.getLsbD 12 = true) (hk : k < 20)
    (hsampled : slotSampled k) (hstart : startsNow u) (hv : EnteredFrom u v)
    (hline : sampleLine (!f.getLsbD (12 - storedBy k)) v = .next handled) : SlotTaken f k handled := by
  obtain ⟨-, hnext⟩ := slotSampled_spec hk.le hsampled
  obtain rfl | hpos := Nat.eq_zero_or_pos k
  · have hempty : v.bitCount = 0 := hv.count.trans (BitVec.eq_of_toNat_eq h.count)
    have hlow : (!f.getLsbD (12 - storedBy 0)) = false := by
      rw [show 12 - storedBy 0 = 12 from rfl, hfirst]
      rfl
    rw [hlow, sampleLine_idle_low hempty] at hline
    cases hline
    exact ⟨rfl, rfl, (framePart_detectStart hfirst v).congr rfl rfl rfl⟩
  · obtain ⟨hcross, hpart⟩ := h.entered hpos hk.le hstart hv
    have hrange : 1 ≤ storedBy k ∧ storedBy k ≤ 11 := by
      unfold slotSampled at hsampled
      unfold storedBy
      split_ifs <;> omega
    have hcount := hpart.count
    rw [sampleLine_bit _ (by rintro h; simp [h] at hcount; omega) (by rintro h; simp [h] at hcount; omega)] at hline
    cases hline
    refine ⟨rfl, hcross, ?_⟩
    rw [hnext]
    exact (hpart.storeBit hrange.1 (by omega)).congr rfl rfl rfl

/-- The sample of the last slot completes the frame: the hold begins or, with none, the frame word has acted
(43_receiver.md R188). -/
structure FrameAssembled (s : State) (f : Frame) (t : State) : Prop where
  buffer : t.accumulatorBuffer = f
  cross : t.zeroCrossCount = 21
  mask : t.bitMask = 0
  held : s.profile.halfCycleDelayUs ≠ 0 →
    t.bitCount = 13 ∧ t.rxPhase = .hold ∧ t.rxTimer.toNat = 5 * s.profile.halfCycleDelayUs.toNat
  ended : s.profile.halfCycleDelayUs = 0 → t.bitCount = 0 ∧ t.rxPhase = .idle ∧ t.frameReadyFlag = true

theorem SlotsTaken.sample_completes (h : SlotsTaken s f 20 u) (hstart : startsNow u) (hv : EnteredFrom u v)
    (hline : sampleLine (!f.getLsbD (12 - storedBy 20)) v = .next handled) : FrameAssembled s f handled := by
  obtain ⟨hcross, hpart⟩ := h.entered (by decide) le_rfl hstart hv
  have hlast : v.bitCount = 12 := BitVec.eq_of_toNat_eq hpart.count
  have hprofile : v.profile = s.profile := hv.profile.trans h.setup.profile
  have hfull := hpart.storeBit (show 1 ≤ 12 by decide) le_rfl
  obtain ⟨hbuffer, hmask⟩ := hfull.complete
  obtain ⟨hacc, hmoved, hsame⟩ := sampleLine_stored (by simp [hlast]) hline
  refine ⟨hacc.trans hbuffer, hsame.trans (BitVec.eq_of_toNat_eq hcross), hmoved.trans hmask, ?_, ?_⟩
  all_goals
    intro hhalf
    rw [sampleLine_lastBit _ hlast, hprofile] at hline
  · rw [if_neg hhalf] at hline
    cases hline
    refine ⟨congrArg (· + 1) hlast, rfl, ?_⟩
    show (holdTicks v).toNat = _
    rw [holdTicks_toNat, hprofile]
  · rw [if_pos hhalf] at hline
    cases hline
    exact ⟨frameReceived_bitCount _ _ _ _, rfl, frameReceived_frameReadyFlag _ _ _ _⟩

/-- A sampled slot is run up to its sample, which finds the complement of its bit on the line (30_encoding.md R88). -/
theorem SlotsTaken.run_sample (h : SlotsTaken s f k u) (hm : s.mainState = .idle) (harmed : s.rxArmed = true)
    (hk : k ≤ 20) (hsampled : slotSampled k) (w : SlotShown s f k window) (hin : u.inputs = window ++ rest) :
    ∃ t v handled latched, run (s.profile.offsetDelayUs.toNat + 1) u = .next t ∧ SameSetup s t ∧ EnteredFrom u v ∧
      sampleLine (!f.getLsbD (12 - storedBy k)) v = .next handled ∧ t = { handled with zcPending := latched } := by
  obtain ⟨hstart, -, hvalid⟩ := h.starts harmed w hin
  have hoffset : u.profile.offsetDelayUs = s.profile.offsetDelayUs := by rw [h.setup.profile]
  obtain ⟨m, t, v, handled, latched, hrun, hstep, hsetup, hv, hline, ht⟩ :=
    run_sampled (h.setup.mainState.trans hm) hstart (h.samplesCrossing_iff.2 hsampled) hvalid
      (noReset_of_slot hin w.levels (by rw [hoffset]; exact w.long))
  rw [hoffset] at hrun
  have hget := List.getElem?_eq_getElem w.long
  have hlevel := w.bit _ _ (slotSampled_spec hk hsampled).1 hget
  rw [← currentInputs_after hin hrun hget] at hlevel
  rw [hlevel] at hline
  exact ⟨t, v, handled, latched, (run_snoc hrun).trans hstep, h.setup.trans hsetup, hv, hline, ht⟩

/-- Every slot but the last is taken in its first ticks: at its sample, or at its edge if it has none. -/
theorem SlotsTaken.taken (h : SlotsTaken s f k u) (hm : s.mainState = .idle) (harmed : s.rxArmed = true)
    (hfirst : f.getLsbD 12 = true) (hk : k < 20) (w : SlotShown s f k window) (hin : u.inputs = window ++ rest) :
    ∃ j t, 1 ≤ j ∧ j ≤ window.length ∧ run j u = .next t ∧ SameSetup s t ∧ SlotTaken f k t := by
  obtain ⟨hstart, hr, hvalid⟩ := h.starts harmed w hin
  by_cases hsampled : slotSampled k
  · obtain ⟨t, v, handled, latched, hrun, hsetup, hv, hline, rfl⟩ := h.run_sample hm harmed hk.le hsampled w hin
    obtain ⟨hphase, hcross, hpart⟩ := h.sample_stores hfirst hk hsampled hstart hv hline
    exact ⟨_, _, Nat.succ_pos _, w.long, hrun, hsetup, hphase, hcross, hpart.congr rfl rfl rfl⟩
  · have hidle := h.setup.mainState.trans hm
    have hnot := mt h.samplesCrossing_iff.1 hsampled
    obtain ⟨t, hstep⟩ := step_noWord_next hidle hr (accepts_of_noWord hvalid)
    have hsetup := step_sameSetup hidle hr (accepts_of_noWord hvalid) hstep
    obtain ⟨v, handled, latched, hv, rfl, ⟨hs, -⟩ | ⟨hs, -⟩ | ⟨-, rfl⟩⟩ := step_started hidle hr hstart hstep
    · exact absurd hs hnot
    · exact absurd hs hnot
    · obtain ⟨hsame, hmany⟩ := storedBy_of_not_slotSampled hsampled
      have hpos : 1 ≤ k := by
        unfold slotSampled at hsampled
        omega
      obtain ⟨hcross, hpart⟩ := h.entered hpos hk.le hstart hv
      refine ⟨1, _, le_rfl, Nat.zero_lt_of_lt w.long, run_one hstep, h.setup.trans hsetup, rfl, hcross, ?_⟩
      rw [hsame]
      exact hpart.congr rfl rfl rfl

/-- After the whole of a slot that is not the last, the receiver waits for the next. -/
theorem SlotsTaken.next (h : SlotsTaken s f k u) (hm : s.mainState = .idle) (harmed : s.rxArmed = true)
    (hfirst : f.getLsbD 12 = true) (hk : k < 20) (w : SlotShown s f k window) (hin : u.inputs = window ++ rest) :
    ∃ t, run window.length u = .next t ∧ SlotsTaken s f (k + 1) t := by
  obtain ⟨hstart, -, -⟩ := h.starts harmed w hin
  obtain ⟨j, t, hpos, hle, hrun, hsetup, hphase, hcross, hpart⟩ := h.taken hm harmed hfirst hk w hin
  have hlevels := w.levels
  rw [← List.take_append_drop j window] at hin hlevels
  obtain ⟨hbefore, hafter⟩ := List.forall_mem_append.1 hlevels
  have hlength : (window.take j).length = j := List.length_take_of_le hle
  rw [List.append_assoc] at hin
  obtain ⟨hlatch, hlevel⟩ := latch_after_start (h.setup.mainState.trans hm) hin hbefore hstart h.pending
    (by rw [hlength]; exact hpos) (by rw [hlength]; exact hrun)
  have hidle := hsetup.mainState.trans hm
  have hleft : t.inputs = window.drop j ++ rest := by rw [run_inputs hrun, hin, List.drop_left' hlength]
  rw [← hlevel] at hafter
  obtain ⟨v, hwait, waits, hstill⟩ := waits_in_slot hidle hphase hlatch hleft hafter
  obtain ⟨hnone, hsame⟩ := latch_in_slot hidle hleft hafter hlatch hwait
  obtain ⟨hcount, hzero, hmask, hacc⟩ := waits.assembly
  refine ⟨v, ?_, hsetup.trans waits.setup, hstill, hnone, ?_, ?_, fun _ => ⟨?_, hpart.congr hcount hmask hacc⟩⟩
  · have hwhole := run_trans hrun hwait
    rwa [List.length_drop, Nat.add_sub_cancel' hle] at hwhole
  · rw [hsame, hlevel]
    obtain hk | hk := Nat.mod_two_eq_zero_or_one k <;> simp [hk, Nat.add_mod]
  · rw [hcount, hpart.count]
  · rw [hzero, hcross]

end

/-! ### The 21 slots -/

/-- A frame shown edge by edge to an armed receiver in `Idle` (43_receiver.md R202; 30_encoding.md R88). -/
structure FrameShown (s : State) (f : Frame) (windows : List (List Inputs)) (rest : List Inputs) : Prop where
  idle : s.mainState = .idle
  armed : s.rxArmed = true
  phase : s.rxPhase = .idle
  pending : s.zcPending = false
  empty : s.bitCount = 0
  first : f.getLsbD 12 = true
  slot : ∀ k window, windows[k]? = some window → SlotShown s f k window
  inputs : s.inputs = windows.flatten ++ rest

section

variable {s u : State} {f : Frame} {windows : List (List Inputs)} {rest window : List Inputs} {k : Nat}

theorem length_flatten_take_succ (hget : windows[k]? = some window) :
    (windows.take (k + 1)).flatten.length = (windows.take k).flatten.length + window.length := by
  rw [List.take_add_one, hget]
  simp

/-- After the first `k` windows the next one is the first to come. -/
theorem FrameShown.inputs_after (h : FrameShown s f windows rest) (hget : windows[k]? = some window)
    (hrun : run (windows.take k).flatten.length s = .next u) :
    u.inputs = window ++ ((windows.drop (k + 1)).flatten ++ rest) := by
  obtain ⟨hlt, rfl⟩ := List.getElem?_eq_some_iff.1 hget
  have hsplit : windows.flatten = (windows.take k).flatten ++ (windows.drop k).flatten := by
    rw [← List.flatten_append, List.take_append_drop]
  rw [run_inputs hrun, h.inputs, hsplit, List.append_assoc, List.drop_left, List.drop_eq_getElem_cons hlt,
    List.flatten_cons, List.append_assoc]

/-- The slots before the last are taken one by one. -/
theorem FrameShown.slotsTaken (h : FrameShown s f windows rest) (hlen : windows.length = 21) (hk : k ≤ 20) :
    ∃ u, run (windows.take k).flatten.length s = .next u ∧ SlotsTaken s f k u := by
  induction k with
  | zero =>
    have hcount : s.bitCount.toNat = storedBy 0 := by rw [h.empty]; rfl
    exact ⟨s, rfl, .refl s, h.phase, h.pending, (Bool.xor_false _).symm, hcount, nofun⟩
  | succ k ih =>
    obtain ⟨u, hrun, hu⟩ := ih (by omega)
    have hget : windows[k]? = some windows[k] := List.getElem?_eq_getElem (by omega)
    obtain ⟨t, hslot, ht⟩ := hu.next h.idle h.armed h.first hk (h.slot k _ hget) (h.inputs_after hget hrun)
    refine ⟨t, ?_, ht⟩
    rw [length_flatten_take_succ hget]
    exact run_trans hrun hslot

/-- The last slot, run up to its sample, completes the frame. -/
theorem FrameShown.assembled (h : FrameShown s f windows rest) (hlen : windows.length = 21)
    (hget : windows[20]? = some window) (hlast : window.length = s.profile.offsetDelayUs.toNat + 1) :
    ∃ t, run windows.flatten.length s = .next t ∧ FrameAssembled s f t := by
  obtain ⟨u, hrun, hu⟩ := h.slotsTaken hlen le_rfl
  have w := h.slot 20 _ hget
  have hin := h.inputs_after hget hrun
  obtain ⟨hstart, -, -⟩ := hu.starts h.armed w hin
  obtain ⟨t, v, handled, latched, hsample, -, hv, hline, rfl⟩ :=
    hu.run_sample h.idle h.armed le_rfl (.inr rfl) w hin
  obtain ⟨hbuffer, hcross, hmask, hheld, hended⟩ := hu.sample_completes hstart hv hline
  refine ⟨{ handled with zcPending := latched }, ?_, hbuffer, hcross, hmask, hheld, hended⟩
  have hall : windows.take (20 + 1) = windows := List.take_of_length_le (by omega)
  have hlength := length_flatten_take_succ hget
  rw [hall] at hlength
  rw [hlength, hlast]
  exact run_trans hrun hsample

end

end Sys2Proof.Safety
end

section

open Sys2Proof Sys2Proof.Machine Sys2Proof.Safety

/-- Settles O50, slot by slot. -/
theorem receiverAssemblesTheFrame : Obligations.ReceiverAssemblesTheFrame := by
  unfold Obligations.ReceiverAssemblesTheFrame
  intro s f windows last rest hc harmed hphase hz h0 hfirst ⟨hlen, hshown⟩ hget hlast hin
  have hslots : FrameShown s f windows rest :=
    ⟨hc.armed_idle harmed, harmed, hphase, hz, h0, hfirst, fun k window hk =>
      have ⟨hlong, hlevels, hbit⟩ := hshown k window hk
      ⟨hlong, hlevels, hbit⟩, hin⟩
  obtain ⟨t, hrun, h⟩ := hslots.assembled hlen hget hlast
  exact ⟨t, hrun, h.buffer, h.cross, h.mask, h.held, h.ended⟩

end

section
/-! PROOFS. The two processes at one tick (60_exceptions.md R263 to R268): the tick of a blocking operation, the pending latch
by its cases, and the exclusion of sequencer and handler, which every step keeps. -/

namespace Sys2Proof.Safety

open Sys2Proof Sys2Proof.Machine

/-! ### The tick of a blocking operation -/

/-- A blocking operation accepted is the whole tick: it keeps the handler from starting and leaves no edge latched
(60_exceptions.md R264, R265). -/
theorem step_blocking {s t : State} (hb : blockingNow s) (hstep : step s = .next t) :
    (presentedCode s = 0x1 ∧
      t = { disarm (respond true 0 (beginTick (currentInputs s) s)) with mainState := .calSync }) ∨
    (presentedCode s = 0x2 ∧ s.calibrated = true ∧
      t = nextRepetition (latchOperands (opHouse (currentInputs s).opWord) (opPayload (currentInputs s).opWord)
        (opRepeat (currentInputs s).opWord) (disarm (respond true 0 (beginTick (currentInputs s) s))))) := by
  obtain ⟨ha, hcode⟩ := hb
  obtain ⟨-, hcalibrate, htransmit, -⟩ := commandWordsDecodeByOpCode (currentInputs s).opWord
  have halone : ∀ i, decodeCommand (currentInputs s).opWord = .ok i → isBlocking i = true →
      step s = exec i (beginTick (currentInputs s) s) := fun i hd hi =>
    step_accepted_alone ha hd (by simp [handlerStarts, hi]) fun hno => by simp [hi] at hno
  obtain hcode | hcode := hcode
  · rw [halone _ (hcalibrate hcode) rfl, exec_calibrate] at hstep
    cases hstep
    exact .inl ⟨hcode, rfl⟩
  · cases hcal : s.calibrated with
    | false =>
      rw [step_transmit_uncalibrated ha hcode hcal] at hstep
      cases hstep
    | true =>
      rw [halone _ (htransmit hcode) rfl, exec_transmit (s := beginTick (currentInputs s) s) hcal] at hstep
      cases hstep
      exact .inr ⟨hcode, rfl, rfl⟩

/-! ### The pending latch -/

/-- An edge finds the armed handler still at work on the one before (60_exceptions.md R265). -/
def edgeWhileRunning (s : State) : Prop := s.rxArmed = true ∧ edgeAt s ∧ s.rxPhase ≠ .idle

theorem nextPending_iff (s : State) (now : Bool) :
    nextPending (edgeNow (currentInputs s) s) (blockingAccepted (currentInputs s) s) s now = true ↔
      s.params.zcPendingLatch = true ∧ ¬ blockingNow s ∧ ¬ startsNow s ∧ (edgeWhileRunning s ∨ now = true) := by
  unfold nextPending edgeWhileRunning
  rw [← blockingAccepted_iff, ← handlerStarts_iff, ← edgeNow_iff, Bool.and_eq_true, and_comm]
  refine and_congr_right fun _ => ?_
  cases blockingAccepted (currentInputs s) s with
  | true => simp
  | false =>
    cases handlerStarts (edgeNow (currentInputs s) s) false s with
    | true => simp
    | false => simp [and_assoc]

/-- The latch holds an edge after a tick without reset exactly in a core that latches, where the edge is neither forgotten
nor taken at this tick and came at it or was latched before. -/
theorem step_zcPending_iff {s t : State} (hr : (currentInputs s).rst = false) (hstep : step s = .next t) :
    t.zcPending = true ↔
      s.params.zcPendingLatch = true ∧ ¬ blockingNow s ∧ ¬ startsNow s ∧ (edgeWhileRunning s ∨ s.zcPending = true) := by
  obtain ⟨hosted, mid, handled, hh, rfl, hpart, rfl⟩ := step_phases hr hstep
  have hkept : ¬ blockingNow s → handled.zcPending = s.zcPending := fun hb => by
    obtain ⟨-, hmain, -⟩ := hostPhase_keeps hh
    exact (handlerPart_keeps hpart).zcPending.trans ((mainPhase_keeps _ _ _).zcPending.trans (hmain hb).zcPending)
  refine (nextPending_iff s handled.zcPending).trans (and_congr_right fun _ => and_congr_right fun hb => ?_)
  rw [hkept hb]

/-! ### The control invariant -/

theorem disarmed_of_unarmed {s : State} (hc : ControlInv s) (h : s.rxArmed = false) : Disarmed s := by
  have harmed : ¬ s.rxArmed = true := by simp [h]
  exact ⟨h, by_contra fun hrun => harmed (hc.running_armed hrun),
    Bool.eq_false_iff.2 fun hlatched => harmed (hc.pending_armed hlatched).1⟩

/-- The handler runs after a tick only if it ran before or has just started. -/
theorem step_running_cases {s t : State} (hr : (currentInputs s).rst = false) (hstep : step s = .next t)
    (hrun : t.rxPhase ≠ .idle) : startsNow s ∨ s.rxPhase ≠ .idle := by
  obtain ⟨mid, handled, b, hpart, ht⟩ := step_handlerSide hr hstep
  obtain ⟨hstart, -⟩ | ⟨-, hidle, rfl⟩ | ⟨-, hbusy, -⟩ := hpart
  · exact .inl hstart
  · rw [ht] at hrun
    exact absurd (b.phase.trans hidle) hrun
  · exact .inr hbusy

/-- Only an acceptance disarms an armed receiver (10_state.md R33). -/
theorem step_armed {s t : State} (hc : ControlInv s) (hr : (currentInputs s).rst = false) (hstep : step s = .next t)
    (harmed : s.rxArmed = true) (hb : ¬ blockingNow s) : t.rxArmed = true := by
  obtain ⟨-, -, hsame, -⟩ | ⟨hx, -⟩ | ⟨hbusy, -⟩ := step_arming hr hstep
  · exact hsame.trans harmed
  · exact absurd hx hb
  · exact absurd (hc.armed_idle harmed) hbusy

theorem step_calibrated {s t : State} (hr : (currentInputs s).rst = false) (hstep : step s = .next t)
    (hcal : s.calibrated = true) : t.calibrated = true := by
  obtain ⟨-, hsame⟩ | ⟨-, hset, -⟩ := step_profileMoves hr hstep
  · exact hsame.trans hcal
  · exact hset

/-- The sequencer is in a TRANSMIT. -/
def transmitting (s : State) : Prop := sending s = true ∨ s.mainState = .guard

/-- A calibration does not turn into a TRANSMIT. -/
theorem transmitting_of_moves {edge : Bool} {s t : State} (m : SequencerMoves edge s t) (h : transmitting t) :
    transmitting s := by
  cases m with
  | stays => exact h
  | synchronizes => simp [transmitting, sending, calSyncEdge] at h
  | measures hm =>
    obtain ⟨-, e⟩ | ⟨-, -, e⟩ | ⟨-, -, e⟩ := calCountTick_cases edge s <;> rw [e] at h
    · exact h
    · exact h
    · simp [transmitting, sending, finishCalibrate] at h
  | delays => exact h
  | emits hm =>
    left
    obtain ⟨hm, -⟩ | hm | hm := hm <;> simp [sending, hm]
  | guards hm => exact .inr hm

/-- A TRANSMIT stands only in a calibrated core: at its acceptance (42_transmitter.md R151), and then tick by tick. -/
theorem step_transmitting {s t : State} (hc : ControlInv s) (hr : (currentInputs s).rst = false)
    (hstep : step s = .next t) (h : transmitting t) : s.calibrated = true := by
  obtain ⟨-, -, -, hidle⟩ | ⟨hb, -⟩ | ⟨hm, -⟩ := step_arming hr hstep
  · simp [transmitting, sending, hidle] at h
  · obtain ⟨-, rfl⟩ | ⟨-, hcal, -⟩ := step_blocking hb hstep
    · simp [transmitting, sending] at h
    · exact hcal
  · rw [busy_step hc hr hm hstep] at h
    exact hc.sending_calibrated
      (transmitting_of_moves (s := beginTick (currentInputs s) s) (sequencerTick_moves (edgeNow (currentInputs s) s) _) h)

/-- A receiver armed after a tick stands beside an idle sequencer, in a calibrated core (60_exceptions.md R263). -/
theorem step_armed_inv {s t : State} (hc : ControlInv s) (hr : (currentInputs s).rst = false) (hstep : step s = .next t)
    (harmed : t.rxArmed = true) : t.mainState = .idle ∧ t.calibrated = true := by
  obtain ⟨-, -, hsame, hidle⟩ | ⟨hb, harm⟩ | ⟨hm, harm⟩ := step_arming hr hstep
  · exact ⟨hidle, step_calibrated hr hstep (hc.armed_calibrated (hsame.symm.trans harmed))⟩
  · obtain hno | ⟨-, hidle⟩ := harm
    · simp [hno] at harmed
    · obtain ⟨-, rfl⟩ | ⟨-, hcal, -⟩ := step_blocking hb hstep
      · cases hidle
      · exact ⟨hidle, step_calibrated hr hstep hcal⟩
  · obtain hsame | ⟨-, hidle⟩ := harm
    · exact absurd (hc.armed_idle (hsame.symm.trans harmed)) hm
    · exact ⟨hidle, (step_endsReady hc hr hm hstep hidle).2⟩

/-- A disarmed receiver takes no part in a tick (60_exceptions.md R266). -/
theorem step_unarmed {s t : State} (hd : Disarmed s) (hr : (currentInputs s).rst = false) (hstep : step s = .next t) :
    t.rxPhase = .idle ∧ t.zcPending = false ∧ sameAssembly s t ∧ sameResults s t ∧ (¬ clearsNow s → sameFlags s t) := by
  obtain ⟨harmed, hphase, hlatched⟩ := hd
  have hlatch : t.zcPending = false := Bool.eq_false_iff.2 fun h => by
    obtain ⟨-, -, -, ⟨hon, -⟩ | hon⟩ := (step_zcPending_iff hr hstep).1 h
    · simp [harmed] at hon
    · simp [hlatched] at hon
  obtain ⟨mid, handled, b, hpart, ht⟩ := step_handlerSide hr hstep
  obtain ⟨⟨hon, -⟩, -⟩ | ⟨-, -, rfl⟩ | ⟨-, hrun, -⟩ := hpart
  · simp [harmed] at hon
  · rw [ht]
    exact ⟨b.phase.trans hphase, hlatch, b.assembly, b.results, b.flags_kept⟩
  · exact absurd hphase hrun

theorem step_keeps_controlInv {s t : State} (hc : ControlInv s) (hstep : step s = .next t) : ControlInv t := by
  cases hr : (currentInputs s).rst with
  | true =>
    rw [step_reset hr] at hstep
    cases hstep
    exact controlInv_resetTick _ s
  | false =>
    constructor
    case armed_idle => exact fun harmed => (step_armed_inv hc hr hstep harmed).1
    case armed_calibrated => exact fun harmed => (step_armed_inv hc hr hstep harmed).2
    case sending_calibrated => exact fun h => step_calibrated hr hstep (step_transmitting hc hr hstep h)
    case running_armed =>
      intro hrun
      obtain ⟨harmed, -, -, hb⟩ | hrunning := step_running_cases hr hstep hrun
      · exact step_armed hc hr hstep harmed hb
      · exact step_armed hc hr hstep (hc.running_armed hrunning) fun ⟨⟨_, _, _, hidle⟩, _⟩ => hrunning hidle
    case pending_armed =>
      intro hpending
      obtain ⟨hlatch, hb, -, hedge⟩ := (step_zcPending_iff hr hstep).1 hpending
      have harmed : s.rxArmed = true := hedge.elim (fun h => h.1) fun h => (hc.pending_armed h).1
      obtain ⟨-, hparams, -, -⟩ := step_tickMoves hstep
      exact ⟨step_armed hc hr hstep harmed hb, by rw [hparams, hlatch]⟩

end Sys2Proof.Safety
end

section

open Sys2Proof Sys2Proof.Machine Sys2Proof.Safety

/-- Settles O15: who arms, who runs and what is latched, clause by clause. -/
theorem controlInvariantKept : Obligations.ControlInvariantKept := by
  unfold Obligations.ControlInvariantKept
  exact fun _ _ hc hstep => step_keeps_controlInv hc hstep

/-- Settles O51: of the cases of the latch the first two empty it, the third fills it and the last leaves it. -/
theorem pendingLatchFollowsItsCases : Obligations.PendingLatchFollowsItsCases := by
  unfold Obligations.PendingLatchFollowsItsCases
  intro s t hr hstep
  have hiff := step_zcPending_iff hr hstep
  refine ⟨fun hno => Bool.eq_false_iff.2 fun h => ?_, fun hlatch => ⟨fun hb => Bool.eq_false_iff.2 fun h => ?_,
    fun _ hstart => Bool.eq_false_iff.2 fun h => ?_, fun hb hstart hedge => hiff.2 ⟨hlatch, hb, hstart, .inl hedge⟩,
    fun hb hstart hedge => ?_⟩⟩
  · obtain ⟨hlatch, -⟩ := hiff.1 h
    simp [hno] at hlatch
  · obtain ⟨-, hnot, -⟩ := hiff.1 h
    exact hnot hb
  · obtain ⟨-, -, hnot, -⟩ := hiff.1 h
    exact hnot hstart
  · have hnone : ¬ edgeWhileRunning s := hedge
    rw [Bool.eq_iff_iff, hiff]
    simp [hlatch, hb, hstart, hnone]

/-- Settles O52: where the receiver is disarmed the handler has no part in the tick, and the latch nothing to hold. -/
theorem disarmedReceiverTakesNoEdge : Obligations.DisarmedReceiverTakesNoEdge := by
  unfold Obligations.DisarmedReceiverTakesNoEdge
  intro s t hc hoff hr hstep
  exact step_unarmed (disarmed_of_unarmed hc hoff) hr hstep

/-- Settles O53: the operation's meaning at acceptance is all that happens at the tick. -/
theorem blockingOperationWinsOverTheEdge : Obligations.BlockingOperationWinsOverTheEdge := by
  unfold Obligations.BlockingOperationWinsOverTheEdge
  intro s t hb hstep
  have ⟨⟨_, _, _, hidle⟩, _⟩ := hb
  obtain ⟨hcode, rfl⟩ | ⟨hcode, -, rfl⟩ := step_blocking hb hstep
  · exact ⟨hidle, rfl, ⟨rfl, rfl, rfl, rfl⟩, ⟨rfl, rfl, rfl, rfl, rfl, rfl⟩, ⟨rfl, rfl⟩, fun _ => ⟨rfl, rfl⟩,
      fun hno => by simp [hcode] at hno⟩
  · have k := nextRepetition_keeps (latchOperands (opHouse (currentInputs s).opWord) (opPayload (currentInputs s).opWord)
      (opRepeat (currentInputs s).opWord) (disarm (respond true 0 (beginTick (currentInputs s) s))))
    exact ⟨k.rxPhase.trans hidle, k.zcPending, ⟨k.bitCount, k.zeroCrossCount, k.bitMask, k.accumulatorBuffer⟩,
      ⟨k.rxHouse, k.rxUnit, k.rxCommand, k.rxStart, k.unitPending, k.unitHousePat⟩, ⟨k.frameReadyFlag, k.commandReady⟩,
      fun hno => by simp [hcode] at hno, fun _ => edgeWaitsLeft_nextRepetition _⟩

end

section
/-! PROOFS. Where a tick has a next state (60_exceptions.md R260, R261): the command port alone can stop it. -/

namespace Sys2Proof.Machine

open Sys2Proof Sys2Proof.Safety

/-- After the command port no part of a tick stops. -/
theorem step_next_of_hosted {s hosted : State} (hr : (currentInputs s).rst = false)
    (h : hostPhase (currentInputs s) s (beginTick (currentInputs s) s) = .next hosted) : ∃ t, step s = .next t := by
  obtain ⟨handled, hh⟩ := handlerPhase_next (currentInputs s) (edgeNow (currentInputs s) s)
    (blockingAccepted (currentInputs s) s) s (mainPhase (edgeNow (currentInputs s) s) s hosted)
  simp [step, tickWith, hr, h, hh, andThen]

/-- The profile has a field for each select below 5 (41_timing_profile.md R138). -/
theorem profileField_isSome (profile : TimingProfile) {select : BitVec 3} (h : ¬ 5 ≤ select.toNat) :
    ∃ value, profileField profile select = some value := by
  have hselect : select = 0 ∨ select = 1 ∨ select = 2 ∨ select = 3 ∨ select = 4 := by
    revert select
    decide
  obtain rfl | rfl | rfl | rfl | rfl := hselect <;> exact ⟨_, rfl⟩

/-- A word the spec gives a meaning to decodes, and its operation does not stop. -/
theorem accepted_runs {s : State} (ha : acceptsNow s) (h : ¬ refusesNow s) :
    ∃ i hosted, decodeCommand (currentInputs s).opWord = .ok i ∧
      exec i (beginTick (currentInputs s) s) = .next hosted := by
  simp only [refusesNow, ha, true_and, not_or, not_and] at h
  obtain ⟨hzero, hlast, hselect, hcal⟩ := h
  obtain ⟨hc | hc, -⟩ | ⟨-, hd⟩ | ⟨hc, hd⟩ | ⟨-, hd⟩ | ⟨-, hd⟩ | ⟨-, hd⟩ | ⟨-, hd⟩ | ⟨-, hd⟩ | ⟨hc, hd⟩ | ⟨-, hd⟩ |
    ⟨-, hd⟩ | ⟨-, hd⟩ | ⟨-, hd⟩ | ⟨-, hd⟩ | ⟨-, hd⟩ := decodeCommand_cases (currentInputs s).opWord
  case inl.inl => exact absurd hc hzero
  case inl.inr => exact absurd hc hlast
  case inr.inr.inl => exact ⟨_, _, hd, exec_transmit (by simpa using hcal hc) _ _ _⟩
  case inr.inr.inr.inr.inr.inr.inr.inr.inl =>
    obtain ⟨value, hvalue⟩ := profileField_isSome s.profile (hselect hc)
    exact ⟨_, _, hd, exec_dumpTiming_field (s := beginTick (currentInputs s) s) hvalue⟩
  all_goals exact ⟨_, _, hd, rfl⟩

theorem step_next_of_not_refuses {s : State} (h : ¬ refusesNow s) : ∃ t, step s = .next t := by
  cases hr : (currentInputs s).rst with
  | true => exact ⟨_, step_reset hr⟩
  | false =>
    cases hacc : accepts (currentInputs s) s with
    | false => exact step_next_of_hosted hr (hosted := beginTick (currentInputs s) s) (by simp [hostPhase, hacc])
    | true =>
      obtain ⟨i, hosted, hd, he⟩ := accepted_runs ((accepts_iff s).1 hacc) h
      exact step_next_of_hosted hr (hosted := hosted) (by simp [hostPhase, hacc, hd, he])

theorem step_refused_of_refuses {s : State} (h : refusesNow s) : ∃ r, step s = .refused r := by
  obtain ⟨ha, hcode | hcode | ⟨hcode, hselect⟩ | ⟨hcode, hcal⟩⟩ := h
  · exact ⟨_, step_reservedOpCode ha (.inl hcode)⟩
  · exact ⟨_, step_reservedOpCode ha (.inr hcode)⟩
  · exact ⟨_, step_reservedFieldSelect ha hcode hselect⟩
  · exact ⟨_, step_transmit_uncalibrated ha hcode hcal⟩

end Sys2Proof.Machine
end

section

open Sys2Proof Sys2Proof.Machine Sys2Proof.Safety

/-- Settles O8: a word with a meaning runs, one without is refused, and there is no fault to answer. -/
theorem stepStopsOnlyWhereTheSpecRefuses : Obligations.StepStopsOnlyWhereTheSpecRefuses := by
  unfold Obligations.StepStopsOnlyWhereTheSpecRefuses
  refine fun s => ⟨⟨fun ⟨t, hstep⟩ hrefuses => ?_, step_next_of_not_refuses⟩, nofun⟩
  obtain ⟨r, hrefused⟩ := step_refused_of_refuses hrefuses
  rw [hrefused] at hstep
  cases hstep

end

section
/-! PROOFS. A sequencer that waits, over any number of ticks without an edge (60_exceptions.md R262). -/

namespace Sys2Proof.Safety

open Sys2Proof Sys2Proof.Machine

/-- Between two edges a waiting sequencer at most counts the ticks of a calibration (41_timing_profile.md R131). -/
theorem sequencerTick_noEdge {s : State} (h : waitsForEdge s = true) :
    sequencerTick false s = s ∨ sequencerTick false s = countElapsed s := by
  cases hm : s.mainState with
  | idle => simp [waitsForEdge, hm] at h
  | txPulse => simp [waitsForEdge, hm] at h
  | txGap => simp [waitsForEdge, hm] at h
  | calCount => exact .inr (by simp [sequencerTick, hm, calCountTick])
  | calSync => exact .inl (by simp [sequencerTick, hm])
  | txWait => exact .inl (by simp [sequencerTick, hm])
  | guard => exact .inl (by simp [sequencerTick, hm])

theorem busy_of_waitsForEdge {s : State} (h : waitsForEdge s = true) : s.mainState ≠ .idle := fun hm => by
  simp [waitsForEdge, hm] at h

/-- `t` waits as `s` does: no field but the count of ticks and those of every tick has changed. -/
structure SameWait (s t : State) : Prop where
  position : SamePosition s t
  txReg : t.txReg = s.txReg
  calibrated : t.calibrated = s.calibrated
  profile : t.profile = s.profile
  assembly : sameAssembly s t
  report : sameReport s t

theorem SameWait.refl (s : State) : SameWait s s :=
  ⟨⟨rfl, rfl, rfl, rfl, rfl, rfl, rfl⟩, rfl, rfl, rfl, ⟨rfl, rfl, rfl, rfl⟩, .refl s⟩

theorem SamePosition.trans {s t u : State} (h : SamePosition s t) (k : SamePosition t u) : SamePosition s u :=
  ⟨k.mainState.trans h.mainState, k.txField.trans h.txField, k.txBit.trans h.txBit, k.txHalf.trans h.txHalf,
    k.txRepeat.trans h.txRepeat, k.edgeCount.trans h.edgeCount, k.rxArmed.trans h.rxArmed⟩

theorem SameWait.trans {s t u : State} (h : SameWait s t) (k : SameWait t u) : SameWait s u :=
  ⟨h.position.trans k.position, k.txReg.trans h.txReg, k.calibrated.trans h.calibrated, k.profile.trans h.profile,
    h.assembly.trans k.assembly, h.report.trans k.report⟩

theorem SameWait.waitsForEdge {s t : State} (h : SameWait s t) : waitsForEdge t = waitsForEdge s := by
  simp only [Safety.waitsForEdge, h.position.mainState]

/-- A tick without an edge leaves the wait as it is. -/
theorem step_sameWait {s : State} (hc : ControlInv s) (hr : (currentInputs s).rst = false)
    (hw : waitsForEdge s = true) (hedge : edgeNow (currentInputs s) s = false) :
    ∃ t, step s = .next t ∧ SameWait s t := by
  refine ⟨_, step_busy hc hr (busy_of_waitsForEdge hw), ?_⟩
  rw [hedge]
  obtain e | e := sequencerTick_noEdge (s := beginTick (currentInputs s) s) hw <;> rw [e] <;>
    exact ⟨⟨rfl, rfl, rfl, rfl, rfl, rfl, rfl⟩, rfl, rfl, rfl, ⟨rfl, rfl, rfl, rfl⟩, .refl s⟩

/-- Where no edge is placed the wait goes on, tick by tick, and stays one a run can reach. -/
theorem wait_after {s : State} {n : Nat} (hc : ControlInv s) (hw : waitsForEdge s = true) (hn : noReset n s)
    (hnone : edgesBy s n = 0) {k : Nat} (hk : k ≤ n) : ∃ u, run k s = .next u ∧ ControlInv u ∧ SameWait s u := by
  induction k with
  | zero => exact ⟨s, rfl, hc, .refl s⟩
  | succ k ih =>
    obtain ⟨u, hrun, hcu, hu⟩ := ih (by omega)
    have hlen := hn.1
    have hedge : edgeNow (currentInputs u) u = false := by
      have hcount := edgesBy_succ (by omega) hrun
      have hmono := edgesBy_mono hk s
      exact Bool.toNat_eq_zero.1 (by omega)
    obtain ⟨t, hstep, ht⟩ := step_sameWait hcu (rst_of_noReset hn hk hrun) (hu.waitsForEdge.trans hw) hedge
    exact ⟨t, (run_snoc hrun).trans hstep, step_keeps_controlInv hcu hstep, hu.trans ht⟩

end Sys2Proof.Safety
end

section

open Sys2Proof Sys2Proof.Machine Sys2Proof.Safety

/-- Settles O43, by induction on the number of ticks; that the core stays disarmed is the control invariant kept. -/
theorem waitWithoutEdgeNeverEnds : Obligations.WaitWithoutEdgeNeverEnds := by
  unfold Obligations.WaitWithoutEdgeNeverEnds
  intro s k hc hw hn hnone
  obtain ⟨t, hrun, hct, same⟩ := wait_after hc hw hn hnone le_rfl
  have hbusy := busy_of_waitsForEdge (same.waitsForEdge.trans hw)
  obtain ⟨hstate, hfield, hbit, hhalf, hrep, hcount, -⟩ := same.position
  obtain ⟨hresults, hflags⟩ := same.report
  exact ⟨t, hrun, hstate, hfield, hbit, hhalf, hcount, hrep, same.txReg, (disarmed_of_busy hct hbusy).armed,
    same.calibrated, same.profile, by simp [opReady, hbusy], same.assembly, hresults, hflags⟩

end
